-- ==== Sys2Proof/Word.lean ====
section
/-! DEFINITION. The word types of the block (00_scope.md R6, R8): a command word and the working
register have 16 bits, a trigger output or visible pattern has 8. Bit 0 is the least significant. -/

namespace Sys2Proof

/-- A 16-bit value: a command word (30_encoding.md R80), the working register `REG` or a stored
pattern (00_scope.md R6). -/
abbrev Word := BitVec 16

/-- An 8-bit value: the visible pattern, the trigger output (00_scope.md R6), `MC_CMD`. -/
abbrev Byte := BitVec 8

/-- A position of the length table `LEN_TABLE`, 0..12 (00_scope.md R6). The values 13, 14 and 15 of
the 4-bit storage are unreachable (10_state.md R22); the type has no such value (DESIGN CHOICE,
safe, log 8). -/
abbrev LenIdx := Fin 13

end Sys2Proof
end

