-- ==== Sys2Proof/Config.lean ====
section
/-! DEFINITION. What an implementation fixes (the parameters of 00_scope.md R7) and the free values.

The parameters are plain data (`Params`), held in the state's field `cfg`: a statement about every
state holds for every value of every parameter, as R7 and 93_implementation_defined.md ask (log 3).
`Config.board` is the one set of parameters the machine after reset has: the spec's choice where R7
gives one, an opaque constant where R7 says OPEN (log 4). -/

namespace Sys2Proof

/-- `CV_RULE`: the bands in which the CV inverts (00_scope.md R7; 40_probability.md R114). -/
inductive CvRule where
  | highOnly
  | lowOnly
  | both
deriving DecidableEq, Repr, Inhabited

/-- `RESET_POLICY` (00_scope.md R7; 41_shift_engine.md R141, R142). -/
inductive ResetPolicy where
  | deferred
  | immediate
deriving DecidableEq, Repr, Inhabited

/-- `ZERO_ROTATION`: what `rotateToZero` rotates (00_scope.md R7; 41_shift_engine.md R137). -/
inductive ZeroRotation where
  | word16
  | loopWindow
deriving DecidableEq, Repr, Inhabited

/-- `CMD_BYTE_ORDER`: the order of a command word's two bytes on a byte-wide host link, outside the
block (00_scope.md R7; 20_memory.md R63). -/
inductive ByteOrder where
  | big
  | little
deriving DecidableEq, Repr, Inhabited

/-- The two forms a `PULSE_FN` may have (00_scope.md R7). -/
inductive PulseOp where
  | and
  | xor
deriving DecidableEq, Repr, Inhabited

/-- `PULSE_FNk`: `x[a] AND x[b]` or `x[a] XOR x[b]` (00_scope.md R7; 43_outputs_aux.md R190). -/
structure PulseFn where
  op : PulseOp
  a : Fin 8
  b : Fin 8
deriving DecidableEq, Repr, Inhabited

/-- The parameters of 00_scope.md R7, each under the name of its row. -/
structure Params where
  /-- `N_BANKS`. -/
  nBanks : Nat
  /-- `FS`, full scale of `p` and `cv`. -/
  fs : Nat
  /-- `P_LOW`. -/
  pLow : Nat
  /-- `P_HIGH`. -/
  pHigh : Nat
  /-- `CV_THRESH`. -/
  cvThresh : Nat
  /-- `CV_RULE`. -/
  cvRule : CvRule
  /-- `RESET_POLICY`. -/
  resetPolicy : ResetPolicy
  /-- `STEP_IN_PLACE`. -/
  stepInPlace : Bool
  /-- `ZERO_ROTATION`. -/
  zeroRotation : ZeroRotation
  /-- `PULSE_FN3`. -/
  pulseFn3 : PulseFn
  /-- `PULSE_FN5`. -/
  pulseFn5 : PulseFn
  /-- `PULSE_FN6`. -/
  pulseFn6 : PulseFn
  /-- `PULSE_FN7`. -/
  pulseFn7 : PulseFn
  /-- `INIT_PATTERN[b]`, in bank order. -/
  initPattern : List Word
  /-- `INIT_LIDX`. -/
  initLidx : LenIdx
  /-- `CMD_BYTE_ORDER`. -/
  cmdByteOrder : ByteOrder
deriving DecidableEq, Repr

/-- The constraints of the table of 00_scope.md R7. -/
abbrev Params.Valid (c : Params) : Prop :=
  (4 ≤ c.nBanks ∧ c.nBanks ≤ 16) ∧ 2 ≤ c.fs ∧ (0 < c.pLow ∧ c.pLow ≤ c.pHigh) ∧ c.pHigh < c.fs ∧
    c.cvThresh < c.fs ∧ c.initPattern.length = c.nBanks ∧ c.initPattern.Nodup

/-- The magnitude a DRUNK draws from `{1, 2, 3}` (43_outputs_aux.md R198). -/
inductive Magnitude where
  | one
  | two
  | three
deriving DecidableEq, Repr, Inhabited

/-- The direction a DRUNK draws from `{+1, -1}` (43_outputs_aux.md R198). -/
inductive Sign where
  | plus
  | minus
deriving DecidableEq, Repr, Inhabited

/-- What the environment supplies with one command: the levels of the input ports `p` and `cv`
(10_state.md R33) and the draws the command may name (00_scope.md R9). Nothing constrains the draws
(40_probability.md R113, 43_outputs_aux.md R199): they are free values (log 5). -/
structure Inputs where
  /-- The bias reading, port `p`. -/
  p : Nat
  /-- The secondary CV reading, port `cv`. -/
  cv : Nat
  /-- The middle-band draw `r` (40_probability.md R113). -/
  r : Nat
  /-- DRUNK's magnitude draw `m`. -/
  m : Magnitude
  /-- DRUNK's direction draw `s`. -/
  s : Sign
deriving DecidableEq, Repr, Inhabited

/-- The environment keeps to the sets the spec names: `p`, `cv` in 0..FS (10_state.md R33) and `r` in
0..FS-1 (40_probability.md R113). The block's rules need none of it (log 6, log 7). -/
abbrev Inputs.Valid (c : Params) (x : Inputs) : Prop := x.p ≤ c.fs ∧ x.cv ≤ c.fs ∧ x.r < c.fs

/-! ### The OPEN parameters

Opaque constants: nothing can be proved of their values beyond the constraints of R7, which the way
they are put together guarantees while leaving every admitted combination possible (log 4). -/

/-- `P_LOW - 1`. -/
opaque Config.pLowLess1 : Nat

/-- `P_HIGH - P_LOW`. -/
opaque Config.pBand : Nat

/-- `FS - P_HIGH - 1`. -/
opaque Config.fsRoom : Nat

/-- A natural that `CV_THRESH` is the remainder of modulo `FS`. -/
opaque Config.cvThreshSeed : Nat

/-- `PULSE_FN3`. -/
opaque Config.pulseFn3 : PulseFn

/-- `PULSE_FN5`. -/
opaque Config.pulseFn5 : PulseFn

/-- `PULSE_FN6`. -/
opaque Config.pulseFn6 : PulseFn

/-- `PULSE_FN7`. -/
opaque Config.pulseFn7 : PulseFn

/-- `INIT_PATTERN[b]` is the image of `b`: a permutation of the words gives pairwise distinct patterns
(70_reset_and_hazards.md R260), and every pairwise distinct choice is the image under some one. -/
opaque Config.initPattern : Equiv.Perm Word

/-- `CMD_BYTE_ORDER`. -/
opaque Config.cmdByteOrder : ByteOrder

/-- The inputs that stand at the ports before the environment has presented a command
(70_reset_and_hazards.md R263): free (DESIGN CHOICE, log 5, log 7). -/
opaque Config.powerOnInputs : Inputs

/-- `FS` of the board. -/
def Config.fs : Nat := Config.pLowLess1 + 1 + Config.pBand + Config.fsRoom + 1

/-- The parameters of the machine `State.reset` is: the "spec's choice" column of 00_scope.md R7, and
the opaque constants above for the rows that are OPEN (log 4). -/
def Config.board : Params where
  nBanks := 8
  fs := Config.fs
  pLow := Config.pLowLess1 + 1
  pHigh := Config.pLowLess1 + 1 + Config.pBand
  cvThresh := Config.cvThreshSeed % Config.fs
  cvRule := .highOnly
  resetPolicy := .deferred
  stepInPlace := true
  zeroRotation := .word16
  pulseFn3 := Config.pulseFn3
  pulseFn5 := Config.pulseFn5
  pulseFn6 := Config.pulseFn6
  pulseFn7 := Config.pulseFn7
  initPattern := [0#16, 1#16, 2#16, 3#16, 4#16, 5#16, 6#16, 7#16].map fun b => Config.initPattern b
  initLidx := 6
  cmdByteOrder := Config.cmdByteOrder

end Sys2Proof
end

