-- ==== Sys2Proof/Syntax.lean ====
section
/-! DEFINITION. The commands of the block: one constructor per row of spec/opcode_table.json
(30_encoding.md R83), and the pseudo-instructions of R92 as named terms. -/

namespace Sys2Proof

/-- The one-bit direction field `d` (30_encoding.md R82). For ITER, `fwd` (0) is the source's `+1`,
"rotate left", and `bwd` (1) its `-1`; for CHLEN, `fwd` is the next longer table entry and `bwd` the
next shorter. -/
inductive Dir where
  | fwd
  | bwd
deriving DecidableEq, Repr, Inhabited

/-- A command of the block (30_encoding.md R83). The bank operand of SAVE and STAGE is the assembler's
bank number (R91), an encodable one being below 16 (`Instr.WellFormed`). -/
inductive Instr where
  /-- `NOP` (43_outputs_aux.md R200). -/
  | nop
  /-- `ITER d, i` (41_shift_engine.md R136); `inPlace` is the field `i`. -/
  | iter (d : Dir) (inPlace : Bool)
  /-- `RSTE` (41_shift_engine.md R141, R142). -/
  | rste
  /-- `CHLEN d` (41_shift_engine.md R145). -/
  | chlen (d : Dir)
  /-- `SAVE b` (42_pattern_store.md R172). -/
  | save (b : Nat)
  /-- `STAGE b` (42_pattern_store.md R174). -/
  | stage (b : Nat)
  /-- `EV.ROTL`, panel RotateLeft (44_mode_controller.md R210). -/
  | evRotl
  /-- `EV.ROTR`, panel RotateRight (44_mode_controller.md R211). -/
  | evRotr
  /-- `EV.CLICK`, panel Click (44_mode_controller.md R212). -/
  | evClick
  /-- `EV.DCLICK`, panel DoubleClick (44_mode_controller.md R213). -/
  | evDclick
  /-- `EV.HOLD`, panel Hold (44_mode_controller.md R214). -/
  | evHold
  /-- `EV.CANCEL`, panel Cancel (44_mode_controller.md R215). -/
  | evCancel
  /-- `FSET` (40_probability.md R116). -/
  | fset
  /-- `FCLR` (40_probability.md R117). -/
  | fclr
  /-- `DRUNK` (43_outputs_aux.md R198). -/
  | drunk
deriving DecidableEq, Repr, Inhabited

/-- `CLOCK`: a clock edge (30_encoding.md R92). -/
def Instr.clock : Instr := .iter .fwd false

/-- `STEPB`: a backward transport step (30_encoding.md R92). -/
def Instr.stepb : Instr := .iter .bwd false

/-- `PREVF`: a forward silent rotation (30_encoding.md R92). -/
def Instr.prevf : Instr := .iter .fwd true

/-- `PREVB`: a backward silent rotation (30_encoding.md R92). -/
def Instr.prevb : Instr := .iter .bwd true

/-- `LONGER`: `changeLength(+1)` (30_encoding.md R92). -/
def Instr.longer : Instr := .chlen .fwd

/-- `SHORTER`: `changeLength(-1)` (30_encoding.md R92). -/
def Instr.shorter : Instr := .chlen .bwd

end Sys2Proof
end

