-- ==== Sys2Proof/WellFormed.lean ====
section
/-! DEFINITION. Which terms of `Instr` are commands of the block. The one operand a term can get
wrong is the bank number: a 4-bit field (30_encoding.md R81, R82), written 0..15 (R91). -/

namespace Sys2Proof

/-- A bank number the 4-bit field `b` can hold (30_encoding.md R82). -/
abbrev bankEncodable (b : Nat) : Prop := b < 16

/-- The commands that have a word (30_encoding.md R83). -/
def Instr.wellFormed : Instr → Bool
  | .nop => true
  | .iter _ _ => true
  | .rste => true
  | .chlen _ => true
  | .save b => decide (bankEncodable b)
  | .stage b => decide (bankEncodable b)
  | .evRotl => true
  | .evRotr => true
  | .evClick => true
  | .evDclick => true
  | .evHold => true
  | .evCancel => true
  | .fset => true
  | .fclr => true
  | .drunk => true

/-- `Instr.wellFormed` as a decidable proposition. -/
abbrev Instr.WellFormed (i : Instr) : Prop := i.wellFormed = true

end Sys2Proof
end

