-- ==== Sys2Proof/Decode.lean ====
section
/-! DEFINITION. The command encoding (30_encoding.md): the opcode map, the decoder, total on all words
and rejecting by name, the encoder, the host's byte order and the assembler syntax. -/

namespace Sys2Proof

/-! ### The opcode map and the decoder -/

/-- The direction a field bit stands for (30_encoding.md R82). -/
def Dir.ofBit (b : Bool) : Dir := if b then .bwd else .fwd

/-- The field bit of a direction (30_encoding.md R82). -/
def Dir.bit : Dir → Bool
  | .fwd => false
  | .bwd => true

/-- The field `d = w[0]` (30_encoding.md R84). -/
def fieldD (w : Word) : Dir := Dir.ofBit (w.getLsbD 0)

/-- The field `i = w[1]` (30_encoding.md R84). -/
def fieldI (w : Word) : Bool := w.getLsbD 1

/-- The field `b = w[3:0]` (30_encoding.md R84). -/
def fieldB (w : Word) : Nat := (w.extractLsb' 0 4).toNat

/-- A row of the opcode map (30_encoding.md R83): a word `w` is the row's when `w & mask = pat`, and
`build` reads its fields. -/
structure OpRow where
  mnemonic : String
  pat : Word
  mask : Word
  build : Word → Instr

/-- `w` matches the row (30_encoding.md R83). -/
def OpRow.accepts (r : OpRow) (w : Word) : Bool := w &&& r.mask == r.pat

/-- The opcode map (30_encoding.md R83), in the table's order. -/
def opRows : List OpRow := [
  ⟨"NOP", 0x0000, 0xFFFF, fun _ => .nop⟩,
  ⟨"ITER", 0x1000, 0xFFFC, fun w => .iter (fieldD w) (fieldI w)⟩,
  ⟨"RSTE", 0x2000, 0xFFFF, fun _ => .rste⟩,
  ⟨"CHLEN", 0x3000, 0xFFFE, fun w => .chlen (fieldD w)⟩,
  ⟨"SAVE", 0x4000, 0xFFF0, fun w => .save (fieldB w)⟩,
  ⟨"STAGE", 0x5000, 0xFFF0, fun w => .stage (fieldB w)⟩,
  ⟨"EV.ROTL", 0x6000, 0xFFFF, fun _ => .evRotl⟩,
  ⟨"EV.ROTR", 0x6001, 0xFFFF, fun _ => .evRotr⟩,
  ⟨"EV.CLICK", 0x6002, 0xFFFF, fun _ => .evClick⟩,
  ⟨"EV.DCLICK", 0x6003, 0xFFFF, fun _ => .evDclick⟩,
  ⟨"EV.HOLD", 0x6004, 0xFFFF, fun _ => .evHold⟩,
  ⟨"EV.CANCEL", 0x6005, 0xFFFF, fun _ => .evCancel⟩,
  ⟨"FSET", 0x7000, 0xFFFF, fun _ => .fset⟩,
  ⟨"FCLR", 0x7001, 0xFFFF, fun _ => .fclr⟩,
  ⟨"DRUNK", 0x8000, 0xFFFF, fun _ => .drunk⟩]

/-- Why a word is reserved (30_encoding.md R89). The spec has one class of reserved words; the names
only say which clause of R89 a word falls under (log 22). -/
inductive Reject where
  /-- Opcodes 0x9 to 0xF. -/
  | reservedOpcode
  /-- Opcode 0x6 with the reserved event code 6 or 7 (30_encoding.md R82). -/
  | reservedEvent
  /-- A bit of 11..0 that the opcode's format does not assign is 1 (30_encoding.md R80). -/
  | unassignedBits
deriving DecidableEq, Repr

/-- The clause of R89 a reserved word falls under. -/
def rejectReason (w : Word) : Reject :=
  if 9 ≤ (w.extractLsb' 12 4).toNat then .reservedOpcode
  else if w = 0x6006 ∨ w = 0x6007 then .reservedEvent
  else .unassignedBits

/-- The decoder, total on all words (30_encoding.md R84). -/
def decode (w : Word) : Except Reject Instr :=
  match opRows.find? fun r => r.accepts w with
  | some r => .ok (r.build w)
  | none => .error (rejectReason w)

/-! ### The encoder, from the formats of 30_encoding.md R81 -/

/-- Format `Z`: an opcode and no operand. -/
def formatZ (op : BitVec 4) : Word := op ++ 0#12

/-- Format `I`: `i` in bit 1 and `d` in bit 0. -/
def formatI (i : Bool) (d : Dir) : Word := 0b0001#4 ++ 0#10 ++ BitVec.ofBool i ++ BitVec.ofBool d.bit

/-- Format `D`: `d` in bit 0. -/
def formatD (d : Dir) : Word := 0b0011#4 ++ 0#11 ++ BitVec.ofBool d.bit

/-- Format `B`: the bank number in bits 3..0. -/
def formatB (op : BitVec 4) (b : Nat) : Word := op ++ 0#8 ++ BitVec.ofNat 4 b

/-- Format `E`: the panel event in bits 2..0. -/
def formatE (e : BitVec 3) : Word := 0b0110#4 ++ 0#9 ++ e

/-- Format `F`: `f` in bit 0. -/
def formatF (f : Bool) : Word := 0b0111#4 ++ 0#11 ++ BitVec.ofBool f

/-- The word of a command (30_encoding.md R81, R82, R83). A bank number that is not well formed has no
word; the encoder keeps its low four bits (log 17). -/
def encode : Instr → Word
  | .nop => formatZ 0x0
  | .iter d i => formatI i d
  | .rste => formatZ 0x2
  | .chlen d => formatD d
  | .save b => formatB 0x4 b
  | .stage b => formatB 0x5 b
  | .evRotl => formatE 0
  | .evRotr => formatE 1
  | .evClick => formatE 2
  | .evDclick => formatE 3
  | .evHold => formatE 4
  | .evCancel => formatE 5
  | .fset => formatF false
  | .fclr => formatF true
  | .drunk => formatZ 0x8

/-- The instruction the decoder reads from the `nbits` low bits of `w`, every bit above them 0: a
command is one 16-bit word (30_encoding.md R80). -/
def decodeTableWord (nbits w : Nat) : Option Instr :=
  match decode (BitVec.ofNat 16 (w % 2 ^ nbits)) with
  | .ok i => some i
  | .error _ => none

/-! ### A host that carries the command word as two bytes

Outside the block (20_memory.md R63): the block accepts the word as one unit (log 15). -/

/-- The command word of two bytes in the order the host sends them. -/
def commandWord (o : ByteOrder) (first second : Byte) : Word :=
  match o with
  | .big => first ++ second
  | .little => second ++ first

/-- The two bytes of a command word in the order the host sends them. -/
def commandBytes (o : ByteOrder) (w : Word) : Byte × Byte :=
  match o with
  | .big => (w.extractLsb' 8 8, w.extractLsb' 0 8)
  | .little => (w.extractLsb' 0 8, w.extractLsb' 8 8)

/-! ### Assembler syntax (30_encoding.md R91, R92) -/

/-- One line of assembly: a mnemonic and its operands (30_encoding.md R91). -/
structure AsmLine where
  mnemonic : String
  operands : List String
deriving DecidableEq, Repr

/-- `F` or `B` (30_encoding.md R91). -/
def Dir.asmIter : Dir → String
  | .fwd => "F"
  | .bwd => "B"

/-- `+` or `-` (30_encoding.md R91). -/
def Dir.asmChlen : Dir → String
  | .fwd => "+"
  | .bwd => "-"

/-- The bank numbers 0..15 in decimal (30_encoding.md R91). -/
def bankNames : List String :=
  ["0", "1", "2", "3", "4", "5", "6", "7", "8", "9", "10", "11", "12", "13", "14", "15"]

/-- The mnemonic of a command (30_encoding.md R83, R91). -/
def Instr.mnemonic : Instr → String
  | .nop => "NOP"
  | .iter _ _ => "ITER"
  | .rste => "RSTE"
  | .chlen _ => "CHLEN"
  | .save _ => "SAVE"
  | .stage _ => "STAGE"
  | .evRotl => "EV.ROTL"
  | .evRotr => "EV.ROTR"
  | .evClick => "EV.CLICK"
  | .evDclick => "EV.DCLICK"
  | .evHold => "EV.HOLD"
  | .evCancel => "EV.CANCEL"
  | .fset => "FSET"
  | .fclr => "FCLR"
  | .drunk => "DRUNK"

/-- The operands of a command as R91 writes them; a bank number that is not well formed has none. -/
def Instr.asmOperands : Instr → Option (List String)
  | .iter d i => some [d.asmIter, if i then "1" else "0"]
  | .chlen d => some [d.asmChlen]
  | .save b => bankNames[b]?.map fun n => [n]
  | .stage b => bankNames[b]?.map fun n => [n]
  | .nop => some []
  | .rste => some []
  | .evRotl => some []
  | .evRotr => some []
  | .evClick => some []
  | .evDclick => some []
  | .evHold => some []
  | .evCancel => some []
  | .fset => some []
  | .fclr => some []
  | .drunk => some []

/-- The assembly line of a command. -/
def Instr.toAsm (i : Instr) : Option AsmLine := i.asmOperands.map fun ops => ⟨i.mnemonic, ops⟩

/-- The pseudo-instructions with what each expands to (30_encoding.md R92). -/
def pseudoRows : List (AsmLine × Instr) := [
  (⟨"CLOCK", []⟩, Instr.clock), (⟨"STEPB", []⟩, Instr.stepb), (⟨"PREVF", []⟩, Instr.prevf),
  (⟨"PREVB", []⟩, Instr.prevb), (⟨"LONGER", []⟩, Instr.longer), (⟨"SHORTER", []⟩, Instr.shorter)]

/-- The 49 commands that have a word (30_encoding.md R83). -/
def allCommands : List Instr :=
  [.nop] ++ [Instr.clock, Instr.stepb, Instr.prevf, Instr.prevb] ++ [.rste] ++
    [Instr.longer, Instr.shorter] ++ (List.range 16).map .save ++ (List.range 16).map .stage ++
    [.evRotl, .evRotr, .evClick, .evDclick, .evHold, .evCancel] ++ [.fset, .fclr] ++ [.drunk]

/-- The command a line of assembly names: a pseudo-instruction, or the command whose line it is. -/
def assemble (l : AsmLine) : Option Instr :=
  match pseudoRows.find? fun r => r.1 = l with
  | some r => some r.2
  | none => allCommands.find? fun i => i.toAsm = some l

/-- A character list without its leading blanks. -/
def dropBlanks : List Char → List Char
  | [] => []
  | c :: cs => if c = ' ' then dropBlanks cs else c :: cs

/-- A character list without its leading and trailing blanks. -/
def trimBlanks (cs : List Char) : List Char := (dropBlanks (dropBlanks cs).reverse).reverse

/-- The pieces of a character list between the occurrences of `sep`. -/
def splitAtChar (sep : Char) : List Char → List (List Char)
  | [] => [[]]
  | c :: cs =>
    if c = sep then [] :: splitAtChar sep cs
    else
      match splitAtChar sep cs with
      | [] => [[c]]
      | p :: ps => (c :: p) :: ps

/-- Reads the characters of one line: the comment after `;` is dropped, then the mnemonic ends at the
first blank and the operands are separated by commas (30_encoding.md R91; blanks around operands are
ignored, log 16). `none` is a line that holds no command. -/
def readLine (cs : List Char) : Option AsmLine :=
  let code := trimBlanks (cs.takeWhile (· ≠ ';'))
  let name := code.takeWhile (· ≠ ' ')
  let rest := dropBlanks (code.dropWhile (· ≠ ' '))
  match name, rest with
  | [], _ => none
  | _, [] => some ⟨String.ofList name, []⟩
  | _, _ => some ⟨String.ofList name, (splitAtChar ',' rest).map fun p => String.ofList (trimBlanks p)⟩

end Sys2Proof
end

