-- ==== Sys2Proof/Machine/State.lean ====
section
/-! DEFINITION. The state of the block (10_state.md, 20_memory.md), the reasons a step can stop, and
the state after power-on (10_state.md R41). The writes are the named updates of Machine/Updates.lean. -/

namespace Sys2Proof.Machine

/-- The Mode Controller states (10_state.md R34), in the order of the source's enum. -/
inductive Mode where
  | performance
  | changeLength
  | patternSave
  | patternLoad
deriving DecidableEq, Repr, Inhabited

/-- One entry of the pattern store: a pattern and a length-table index (20_memory.md R60). -/
structure Entry where
  pattern : Word
  lidx : LenIdx
deriving DecidableEq, Repr, Inhabited

/-- The pattern store (20_memory.md R60, R61), the block's one memory: its entries in bank order, bank
0 first. It has no byte addresses (R61), so its cells are entries (log 10). -/
abbrev Memory := List Entry

/-- The canonical form of a store of `banks` banks: one entry for each bank that exists and nothing
else (20_memory.md R60). Equal stores are equal lists. -/
abbrev Memory.wf (banks : Nat) (m : Memory) : Prop := m.length = banks

/-- One command as the environment presents it: the word on the command port with the inputs and
draws supplied with it (10_state.md R20, R33). -/
structure Presentation where
  cmd : Word
  inp : Inputs
deriving DecidableEq, Repr

/-- The state of the machine. The first seventeen fields are the block's state elements of
10_state.md R22 to R38; the last three are the model's own (log 1, log 3, log 5). -/
structure State where
  /-- `REG`, the working register (R24). -/
  reg : Word
  /-- `LIDX`, the length as a table index (R22). -/
  lidx : LenIdx
  /-- `OFS`, the signed step counter in its 5-bit storage (R23). -/
  ofs : BitVec 5
  /-- `BANK`, the bank most recently loaded (R25). -/
  bank : BitVec 4
  /-- `NEXT`, the staged bank (R26). -/
  next : BitVec 4
  /-- `RP`, `resetPending` (R27). -/
  rp : Bool
  /-- `NLP`, `newLoadPending` (R28). -/
  nlp : Bool
  /-- `WR`, `wasReset` (R29). -/
  wr : Bool
  /-- `NPL`, `newPatternLoaded` (R30). -/
  npl : Bool
  /-- `FSET`, the armed force-set override (R31). -/
  fset : Bool
  /-- `FCLR`, the armed force-clear override (R31). -/
  fclr : Bool
  /-- `DIDX`, the drunken-walk index (R32). -/
  didx : BitVec 3
  /-- `MODE`, the Mode Controller state (R34). -/
  mode : Mode
  /-- `SLOT`, the selected Save/Load slot (R35). -/
  slot : BitVec 4
  /-- `MC_CMD`, the code of the last emitted command (R36). -/
  mcCmd : Byte
  /-- `CMD_ERR`, sticky: a reserved word was presented (R37). -/
  cmdErr : Bool
  /-- `STORE`, the pattern store (R38). -/
  store : Memory
  /-- The implementation parameters (00_scope.md R7), constant while the block runs
  (70_reset_and_hazards.md R263). -/
  cfg : Params
  /-- The ports and draws supplied with the command being run (R33). -/
  inp : Inputs
  /-- The commands the environment has still to present, the next one first (R20, R21). -/
  script : List Presentation
deriving DecidableEq, Repr

/-- Why the machine stops with a fault. -/
inductive Fault where
  /-- An access to an entry of the pattern store that does not exist. Raised by the store's two
  primitives (20_memory.md R62). Safe: banks are reduced modulo `N_BANKS` before use (R64), so no
  state that satisfies 10_state.md R39 reaches it (log 10). -/
  | noSuchBank (bank : Nat)
deriving DecidableEq, Repr

/-- Why a command has no meaning in the model. -/
inductive Refusal where
  /-- Raised by an arm of `exec` whose instruction has no meaning yet; no arm of this model raises
  it. Safe: a refused instruction has no behaviour. -/
  | notModelled (mnemonic : String)
deriving DecidableEq, Repr

/-- The state right after power-on of a block with the parameters `c` (10_state.md R41,
70_reset_and_hazards.md R260): the store holds the initial patterns, the working state is a copy of
bank 0, everything else is zero, Performance and NoCmd. (`headD`'s default stands only for a list of
patterns that is empty, which R7 excludes: log 18.) -/
def State.powerOn (c : Params) : State where
  reg := c.initPattern.headD 0
  lidx := c.initLidx
  ofs := 0
  bank := 0
  next := 0
  rp := false
  nlp := false
  wr := false
  npl := false
  fset := false
  fclr := false
  didx := 0
  mode := .performance
  slot := 0
  mcCmd := 0
  cmdErr := false
  store := c.initPattern.map fun pat => ⟨pat, c.initLidx⟩
  cfg := c
  inp := Config.powerOnInputs
  script := []

/-- The machine right after reset: power-on of the board's parameters, with no command presented yet
(70_reset_and_hazards.md R261; log 2). -/
def State.reset : State := State.powerOn Config.board

end Sys2Proof.Machine
end

