-- ==== Sys2Proof/Machine/Updates.lean ====
section
/-! DEFINITION. The named updates of the state: the only writes the operations make. Laws/State.lean
says of each what it does to every field. -/

namespace Sys2Proof.Machine

/-- A command is accepted: its inputs are sampled and it leaves the script (10_state.md R33). -/
def State.accept (s : State) (x : Inputs) (rest : List Presentation) : State :=
  { s with inp := x, script := rest }

/-- A reserved word was presented (30_encoding.md R90). -/
def State.markReserved (s : State) : State := { s with cmdErr := true }

/-- The per-step flags are cleared at the start of a transport ITER (41_shift_engine.md R136). -/
def State.beginTransport (s : State) : State := { s with wr := false, npl := false }

/-- The pending reset takes effect (41_shift_engine.md R136). -/
def State.takeReset (s : State) : State := { s with rp := false, wr := true, ofs := 0 }

/-- `REG <- v`. -/
def State.setReg (s : State) (v : Word) : State := { s with reg := v }

/-- `OFS <- o`. -/
def State.setOfs (s : State) (o : BitVec 5) : State := { s with ofs := o }

/-- `LIDX <- l` with the offset re-normalised to `o` (41_shift_engine.md R145). -/
def State.setLength (s : State) (l : LenIdx) (o : BitVec 5) : State := { s with lidx := l, ofs := o }

/-- `RP <- 1` (41_shift_engine.md R141). -/
def State.pendReset (s : State) : State := { s with rp := true }

/-- `OFS <- 0; WR <- 1`, a reset that takes effect at once (41_shift_engine.md R142). -/
def State.zeroTransport (s : State) : State := { s with ofs := 0, wr := true }

/-- The downbeat load of entry `e`, its offset re-anchored to `o` (42_pattern_store.md R177). -/
def State.loadEntry (s : State) (e : Entry) (o : BitVec 5) : State :=
  { s with reg := e.pattern, lidx := e.lidx, ofs := o, bank := s.next, nlp := false, npl := true }

/-- `NEXT <- k; NLP <- 1` (42_pattern_store.md R174). -/
def State.stageBank (s : State) (k : BitVec 4) : State := { s with next := k, nlp := true }

/-- The pattern store becomes `m`. -/
def State.setStore (s : State) (m : Memory) : State := { s with store := m }

/-- `FSET <- b`. -/
def State.setFset (s : State) (b : Bool) : State := { s with fset := b }

/-- `FCLR <- b`. -/
def State.setFclr (s : State) (b : Bool) : State := { s with fclr := b }

/-- `DIDX <- x`. -/
def State.setDidx (s : State) (x : BitVec 3) : State := { s with didx := x }

/-- The Mode Controller's transition and the record of its emitted command
(44_mode_controller.md R209). -/
def State.panel (s : State) (md : Mode) (sl : BitVec 4) (code : Byte) : State :=
  { s with mode := md, slot := sl, mcCmd := code }

end Sys2Proof.Machine
end

