-- ==== Sys2Proof/Machine/Operands.lean ====
section
/-! DEFINITION. The operand forms: the length table, the signed offset, bank and slot indices, the tap
and the offset advance of the Step Parameter Resolver (00_scope.md R6, R10; 41_shift_engine.md R130,
R135), and the emitted commands with their codes (10_state.md R36). -/

namespace Sys2Proof.Machine

/-! ### Arithmetic helpers (00_scope.md R10) -/

/-- `a mod m`, floored: the unique remainder in 0..m-1 (00_scope.md R10). -/
def floorMod (a : Int) (m : Nat) : Nat := (a % (m : Int)).toNat

/-- `trem(a, m)`, the truncated remainder with the sign of `a` (00_scope.md R10). -/
def trem (a : Int) (m : Nat) : Int := a.tmod (m : Int)

/-! ### The length and the offset -/

/-- `LEN_TABLE` (00_scope.md R6). -/
def lenTable : List Nat := [2, 3, 4, 5, 6, 7, 8, 9, 10, 11, 12, 15, 16]

/-- `LEN(l)`, the loop length at a table index (00_scope.md R6, R9). -/
def len (l : LenIdx) : Nat := lenTable[l.val]'l.isLt

/-- The offset a 5-bit storage holds, a mathematical integer in every rule (00_scope.md R8). -/
def offsetOf (o : BitVec 5) : Int := o.toInt

/-- The 5-bit two's complement storage of an offset (10_state.md R23); the offsets of lawful states fit
(log 9). -/
def storeOffset (n : Int) : BitVec 5 := BitVec.ofInt 5 n

/-- The offset change of a direction: `+1` forward, `-1` backward (41_shift_engine.md R130). -/
def dirStep : Dir → Int
  | .fwd => 1
  | .bwd => -1

/-- The tap (read) index of a direction: `L - 1` forward, `(8 - L) mod 16` backward
(41_shift_engine.md R130). -/
def tapIndex (d : Dir) (L : Nat) : Nat :=
  match d with
  | .fwd => L - 1
  | .bwd => floorMod (8 - (L : Int)) 16

/-- `adv(o, d)`: the offset advance, wrapping to 0 at `±L` (41_shift_engine.md R135). -/
def adv (o : BitVec 5) (L : Nat) (d : Dir) : BitVec 5 :=
  let n := offsetOf o + dirStep d
  if n.natAbs = L then 0 else storeOffset n

/-- `trem(OFS, L)`, the re-normalisation of the offset modulo a length (41_shift_engine.md R145;
42_pattern_store.md R177). -/
def renormOffset (o : BitVec 5) (L : Nat) : BitVec 5 := storeOffset (trem (offsetOf o) L)

/-- The effective offset: 0 while a reset is pending, else `OFS` (41_shift_engine.md R140). -/
def effOffset (s : State) : Int := if s.rp then 0 else offsetOf s.ofs

/-- The next longer or shorter table index; none at an edge (41_shift_engine.md R145). -/
def nextLength (d : Dir) (l : LenIdx) : Option LenIdx :=
  match d with
  | .fwd => if h : l.val + 1 < 13 then some ⟨l.val + 1, h⟩ else none
  | .bwd => if 0 < l.val then some ⟨l.val - 1, by omega⟩ else none

/-! ### Bank and slot indices -/

/-- A bank operand, reduced modulo `N_BANKS` (20_memory.md R64; 42_pattern_store.md R172, R174). -/
def reduceBank (c : Params) (b : Nat) : BitVec 4 := BitVec.ofNat 4 (floorMod b c.nBanks)

/-- The slot moved by `k`, modulo `N_BANKS`, wrapping both ways (44_mode_controller.md R210, R211). -/
def moveSlot (c : Params) (slot : BitVec 4) (k : Int) : BitVec 4 :=
  BitVec.ofNat 4 (floorMod ((slot.toNat : Int) + k) c.nBanks)

/-! ### The draws of DRUNK (43_outputs_aux.md R198) -/

/-- The value of the magnitude draw. -/
def magnitudeValue : Magnitude → Int
  | .one => 1
  | .two => 2
  | .three => 3

/-- The value of the direction draw. -/
def signValue : Sign → Int
  | .plus => 1
  | .minus => -1

/-! ### Modes and emitted commands -/

/-- The 2-bit encoding of `MODE` (10_state.md R34). -/
def modeCode : Mode → BitVec 2
  | .performance => 0
  | .changeLength => 1
  | .patternSave => 2
  | .patternLoad => 3

/-- A command the Mode Controller emits (44_mode_controller.md R209, R220). -/
inductive Emitted where
  | noCmd
  | changeMode
  | step (d : Dir)
  | length (d : Dir)
  | load (slot : BitVec 4)
  | save (slot : BitVec 4)
  | leds
deriving DecidableEq, Repr

/-- The kind field, bits 6..4 of `MC_CMD` (10_state.md R36). -/
def emittedKind : Emitted → BitVec 3
  | .noCmd => 0
  | .changeMode => 1
  | .step _ => 2
  | .length _ => 3
  | .load _ => 4
  | .save _ => 5
  | .leds => 6

/-- The direction bit of Step and Length: 0 for `+1`, 1 for `-1` (10_state.md R36). -/
def directionArg : Dir → BitVec 4
  | .fwd => 0
  | .bwd => 1

/-- The argument field, bits 3..0 of `MC_CMD` (10_state.md R36). -/
def emittedArg : Emitted → BitVec 4
  | .step d => directionArg d
  | .length d => directionArg d
  | .load k => k
  | .save k => k
  | .noCmd => 0
  | .changeMode => 0
  | .leds => 0

/-- The code of an emitted command, bit 7 being 0 (10_state.md R36; 44_mode_controller.md R209). -/
def emittedCode (e : Emitted) : Byte := 0#1 ++ emittedKind e ++ emittedArg e

/-- What one panel event does to the Mode Controller: the new mode and slot and the emitted command
(44_mode_controller.md R209). -/
structure Transition where
  mode : Mode
  slot : BitVec 4
  cmd : Emitted
deriving DecidableEq, Repr

end Sys2Proof.Machine
end

