-- ==== Sys2Proof/Machine/Flags.lean ====
section
/-! DEFINITION. The one-bit computations: the bands of the bias, the CV threshold, the middle-band
draw and the bit the Probability Source returns (40_probability.md R110 to R114), and when the
downbeat load fires (42_pattern_store.md R176). -/

namespace Sys2Proof.Machine

/-- A band of the bias reading (40_probability.md R111). -/
inductive Band where
  | high
  | low
  | middle
deriving DecidableEq, Repr

/-- The band `p` lies in (40_probability.md R111). -/
def band (c : Params) (p : Nat) : Band :=
  if c.pHigh < p then .high else if p < c.pLow then .low else .middle

/-- The CV inverts in the high band (40_probability.md R114). -/
def cvRuleHigh : CvRule → Bool
  | .highOnly => true
  | .lowOnly => false
  | .both => true

/-- The CV inverts in the low band (40_probability.md R114). -/
def cvRuleLow : CvRule → Bool
  | .highOnly => false
  | .lowOnly => true
  | .both => true

/-- The CV exceeds its own threshold (40_probability.md R111). -/
def cvExceeds (c : Params) (cv : Nat) : Bool := decide (c.cvThresh < cv)

/-- `base`, inverted when the CV applies and exceeds its threshold (40_probability.md R114). -/
def cvInvert (c : Params) (x : Inputs) (applies base : Bool) : Bool :=
  if applies && cvExceeds c x.cv then !base else base

/-- What the Probability Source returns for the candidate `cand` when no override is armed
(40_probability.md R113, R114). In the middle band the draw `r` decides and the CV is not consulted. -/
def regenerate (c : Params) (x : Inputs) (cand : Bool) : Bool :=
  match band c x.p with
  | .high => cvInvert c x (cvRuleHigh c.cvRule) cand
  | .low => cvInvert c x (cvRuleLow c.cvRule) (!cand)
  | .middle => if x.p ≤ x.r then !cand else cand

/-- `stochasticize(c)`: the bit it returns, and the state with the override it used consumed
(40_probability.md R112, R114). -/
def stochasticize (s : State) (cand : Bool) : Bool × State :=
  if s.fset then (true, s.setFset false)
  else if s.fclr then (false, s.setFclr false)
  else (regenerate s.cfg s.inp cand, s)

/-- The staged load fires on a state whose offset has just been advanced (42_pattern_store.md R176). -/
def loadFires (s : State) : Bool := s.nlp && decide (s.ofs = 0)

end Sys2Proof.Machine
end

