-- ==== Sys2Proof/Machine/Ops.lean ====
section
/-! DEFINITION. The named operations over the working register, the pattern store and the command
port: rotations (00_scope.md R10; 41_shift_engine.md R131, R132, R137, R138), `norm`
(42_pattern_store.md R171), the store's two primitives (20_memory.md R62), and the engine operations
the commands and the dispatcher share: `iterate`, `reset`, `changeLength`, `savePattern`,
`setNextPattern`, `DownbeatLoad`.

The block raises no exception and takes no trap (60_exceptions.md R240, R246): there is no exception
entry and no return to write. -/

namespace Sys2Proof.Machine

/-- The outcome of a command. -/
abbrev Result := Host.Outcome State Fault Refusal

/-! ### Bits of a word -/

/-- The value whose bit `j` is `f j`, for `j` below `n`. -/
def ofBits (f : Nat → Bool) : (n : Nat) → BitVec n
  | 0 => 0#0
  | n + 1 => BitVec.cons (f n) (ofBits f n)

/-- The 16-bit word whose bit `j` is `f j`. -/
def wordOfBits (f : Nat → Bool) : Word := ofBits f 16

/-- `rotl16(v, k)`: bit i moves to bit (i + k) mod 16 (00_scope.md R10). -/
def rotl16 (v : Word) (k : Nat) : Word := v.rotateLeft k

/-- `rotr16(v, k)`: bit i moves to bit (i - k) mod 16 (00_scope.md R10). -/
def rotr16 (v : Word) (k : Nat) : Word := v.rotateRight k

/-! ### The rotation step -/

/-- The forward rotation with fed-back bit `fb`: `REG[14:0] ++ fb` (41_shift_engine.md R131). -/
def rotateForward (v : Word) (fb : Bool) : Word := v.extractLsb' 0 15 ++ BitVec.ofBool fb

/-- The backward rotation with fed-back bit `fb`: `t[15:8] ++ fb ++ t[6:0]` for `t = rotr16(REG, 1)`
(41_shift_engine.md R132). -/
def rotateBackward (v : Word) (fb : Bool) : Word :=
  let t := rotr16 v 1
  t.extractLsb' 8 8 ++ BitVec.ofBool fb ++ t.extractLsb' 0 7

/-- The rotation step in a direction (41_shift_engine.md R130). -/
def rotateStep (d : Dir) (v : Word) (fb : Bool) : Word :=
  match d with
  | .fwd => rotateForward v fb
  | .bwd => rotateBackward v fb

/-- The tap bit, read from the register before the rotation (41_shift_engine.md R131, R132). -/
def tapBit (d : Dir) (L : Nat) (v : Word) : Bool := v.getLsbD (tapIndex d L)

/-! ### Rotation to step zero -/

/-- The position `w_j` of the loop window: `j` for a forward offset, `(8 - L + j) mod 16` for a
backward one (41_shift_engine.md R137). -/
def windowPos (back : Bool) (L j : Nat) : Nat :=
  if back then floorMod (8 - (L : Int) + j) 16 else j

/-- The `j` with `w_j = i`, below `L` exactly when bit `i` lies in the window. -/
def windowIndex (back : Bool) (L i : Nat) : Nat :=
  if back then floorMod ((i : Int) - 8 + L) 16 else i

/-- The window rotated: bit `w_j` of the result is bit `w_((j + k) mod L)` of `v`, the other bits are
those of `v` (41_shift_engine.md R137). -/
def rotateWindow (back : Bool) (L : Nat) (v : Word) (k : Int) : Word :=
  wordOfBits fun i =>
    let j := windowIndex back L i
    if j < L then v.getLsbD (windowPos back L (floorMod (j + k) L)) else v.getLsbD i

/-- The whole word rotated right by `k`, left by `-k` when `k` is negative (41_shift_engine.md R137). -/
def rotateWord (v : Word) (k : Int) : Word :=
  if 0 < k then rotr16 v k.toNat else if k < 0 then rotl16 v (-k).toNat else v

/-- `rotateToZero(v, o)` (41_shift_engine.md R137). -/
def rotateToZero (z : ZeroRotation) (L : Nat) (v : Word) (o : Int) : Word :=
  match z with
  | .word16 => rotateWord v o
  | .loopWindow => if o = 0 then v else rotateWindow (decide (o < 0)) L v o

/-- `rotateToCurrentStep(v, o)`, the inverse rotation, called by no command (41_shift_engine.md R138). -/
def rotateToCurrentStep (z : ZeroRotation) (L : Nat) (v : Word) (o : Int) : Word :=
  match z with
  | .word16 => rotateWord v (-o)
  | .loopWindow => if o = 0 then v else rotateWindow (decide (o < 0)) L v (-o)

/-- `norm(v, L)`: bit j of the result is `v[j mod L]` (42_pattern_store.md R171). -/
def normPattern (v : Word) (L : Nat) : Word := wordOfBits fun j => v.getLsbD (j % L)

/-! ### The pattern store (20_memory.md R62) -/

/-- `StoreRead(b)`; none when there is no bank `b`. -/
def storeRead (m : Memory) (b : Nat) : Option Entry := m[b]?

/-- `StoreWrite(b, e)`; none when there is no bank `b`. -/
def storeWrite (m : Memory) (b : Nat) (e : Entry) : Option Memory :=
  if b < m.length then some (m.set b e) else none

/-! ### The engine operations -/

/-- `DownbeatLoad()` (42_pattern_store.md R177). -/
def downbeatLoad (s : State) : Result :=
  match storeRead s.store s.next.toNat with
  | some e => .next (s.loadEntry e (renormOffset s.ofs (len e.lidx)))
  | none => .fault (.noSuchBank s.next.toNat)

/-- The in-place ITER: the rotation with the unmodified tap bit and nothing else
(41_shift_engine.md R134, R136). -/
def iterateInPlace (d : Dir) (s : State) : State :=
  s.setReg (rotateStep d s.reg (tapBit d (len s.lidx) s.reg))

/-- The rotation and the offset advance of a transport ITER (41_shift_engine.md R136). -/
def transportStep (d : Dir) (s : State) : State :=
  let L := len s.lidx
  let fb := stochasticize s (tapBit d L s.reg)
  (fb.2.setReg (rotateStep d s.reg fb.1)).setOfs (adv s.ofs L d)

/-- The transport ITER: a pending reset takes effect and nothing else happens, or the register steps
and a staged load fires at a downbeat (41_shift_engine.md R136). -/
def transport (d : Dir) (s : State) : Result :=
  let t := s.beginTransport
  if t.rp then .next t.takeReset
  else
    let u := transportStep d t
    if loadFires u then downbeatLoad u else .next u

/-- `iterate(direction, inPlace)` (41_shift_engine.md R136). -/
def iterate (d : Dir) (inPlace : Bool) (s : State) : Result :=
  if inPlace then .next (iterateInPlace d s) else transport d s

/-- `reset()` on a reset edge, under either policy (41_shift_engine.md R141, R142). -/
def resetEdge (s : State) : State :=
  let L := len s.lidx
  match s.cfg.resetPolicy with
  | .deferred => (s.setReg (rotateToZero s.cfg.zeroRotation L s.reg (effOffset s))).pendReset
  | .immediate => (s.setReg (rotateToZero s.cfg.zeroRotation L s.reg (offsetOf s.ofs))).zeroTransport

/-- `changeLength(±1)` (41_shift_engine.md R145). -/
def changeLength (d : Dir) (s : State) : State :=
  match nextLength d s.lidx with
  | some l => s.setLength l (renormOffset s.ofs (len l))
  | none => s

/-- The entry a save writes: the register rotated to step 0 on a scratch copy and normalised, with the
length index (42_pattern_store.md R172). -/
def savedEntry (s : State) : Entry :=
  let L := len s.lidx
  ⟨normPattern (rotateToZero s.cfg.zeroRotation L s.reg (effOffset s)) L, s.lidx⟩

/-- `savePattern(bank)` (42_pattern_store.md R172). -/
def savePattern (b : Nat) (s : State) : Result :=
  let k := (reduceBank s.cfg b).toNat
  match storeWrite s.store k (savedEntry s) with
  | some m => .next (s.setStore m)
  | none => .fault (.noSuchBank k)

/-- `setNextPattern(bank)` (42_pattern_store.md R174). -/
def setNextPattern (b : Nat) (s : State) : State := s.stageBank (reduceBank s.cfg b)

/-- `Dispatch(cmd)`: the engine operation an emitted command stands for (44_mode_controller.md R220). -/
def dispatch (e : Emitted) (s : State) : Result :=
  match e with
  | .step d => iterate d s.cfg.stepInPlace s
  | .length d => .next (changeLength d s)
  | .load k => .next (setNextPattern k.toNat s)
  | .save k => savePattern k.toNat s
  | .changeMode => .next s
  | .leds => .next s
  | .noCmd => .next s

/-- The common part of every EV command: the transition, its record in `MC_CMD`, the dispatch
(44_mode_controller.md R209). -/
def runPanel (t : Transition) (s : State) : Result :=
  dispatch t.cmd (s.panel t.mode t.slot (emittedCode t.cmd))

/-! ### The command port -/

/-- The next command presented, with the state in which its inputs are sampled; none while the
environment presents nothing (10_state.md R20, R33). -/
def fetch (s : State) : Option (Word × State) :=
  match s.script with
  | [] => none
  | c :: rest => some (c.cmd, s.accept c.inp rest)

/-- Between commands the block is idle and holds its state (60_exceptions.md R251). -/
def idle (s : State) : State := s

/-- What a reserved word does: `CMD_ERR <- 1` and nothing else (30_encoding.md R90). -/
def reservedWord (s : State) : State := s.markReserved

end Sys2Proof.Machine
end

