-- ==== Sys2Proof/Machine/Auxiliary.lean ====
section
/-! DEFINITION. The auxiliary commands: NOP, DRUNK (43_outputs_aux.md). -/

namespace Sys2Proof.Machine

/-- The next drunken-walk index: `(DIDX + s * m) mod 8`, floored (43_outputs_aux.md R198). -/
def walkIndex (i : BitVec 3) (x : Inputs) : BitVec 3 :=
  BitVec.ofNat 3 (floorMod ((i.toNat : Int) + signValue x.s * magnitudeValue x.m) 8)

/-- `NOP` (43_outputs_aux.md R200). -/
def execNop (s : State) : Result := .next s

/-- `DRUNK` (43_outputs_aux.md R198). -/
def execDrunk (s : State) : Result := .next (s.setDidx (walkIndex s.didx s.inp))

end Sys2Proof.Machine
end

