-- ==== Sys2Proof/Machine/ModeController.lean ====
section
/-! DEFINITION. The panel events: one transition per event (44_mode_controller.md R210 to R215) and the
six EV commands, each its transition run by the common part of R209. -/

namespace Sys2Proof.Machine

/-- The transition on RotateLeft (44_mode_controller.md R210). -/
def onRotateLeft (s : State) : Transition :=
  match s.mode with
  | .performance => ⟨.performance, s.slot, .step .bwd⟩
  | .changeLength => ⟨.changeLength, s.slot, .length .bwd⟩
  | .patternSave => ⟨.patternSave, moveSlot s.cfg s.slot (-1), .leds⟩
  | .patternLoad => ⟨.patternLoad, moveSlot s.cfg s.slot (-1), .leds⟩

/-- The transition on RotateRight (44_mode_controller.md R211). -/
def onRotateRight (s : State) : Transition :=
  match s.mode with
  | .performance => ⟨.performance, s.slot, .step .fwd⟩
  | .changeLength => ⟨.changeLength, s.slot, .length .fwd⟩
  | .patternSave => ⟨.patternSave, moveSlot s.cfg s.slot 1, .leds⟩
  | .patternLoad => ⟨.patternLoad, moveSlot s.cfg s.slot 1, .leds⟩

/-- The transition on Click (44_mode_controller.md R212). -/
def onClick (s : State) : Transition :=
  match s.mode with
  | .performance => ⟨.changeLength, s.slot, .changeMode⟩
  | .changeLength => ⟨.performance, s.slot, .changeMode⟩
  | .patternSave => ⟨.patternSave, s.slot, .noCmd⟩
  | .patternLoad => ⟨.patternLoad, s.slot, .noCmd⟩

/-- The transition on DoubleClick (44_mode_controller.md R213). -/
def onDoubleClick (s : State) : Transition :=
  match s.mode with
  | .performance => ⟨.patternLoad, s.slot, .changeMode⟩
  | .changeLength => ⟨.changeLength, s.slot, .noCmd⟩
  | .patternSave => ⟨.patternSave, s.slot, .noCmd⟩
  | .patternLoad => ⟨.performance, s.slot, .load s.slot⟩

/-- The transition on Hold (44_mode_controller.md R214). -/
def onHold (s : State) : Transition :=
  match s.mode with
  | .performance => ⟨.patternSave, s.slot, .changeMode⟩
  | .changeLength => ⟨.changeLength, s.slot, .noCmd⟩
  | .patternSave => ⟨.performance, s.slot, .save s.slot⟩
  | .patternLoad => ⟨.patternLoad, s.slot, .noCmd⟩

/-- The transition on Cancel, the same from every mode (44_mode_controller.md R215). -/
def onCancel (s : State) : Transition := ⟨.performance, s.slot, .changeMode⟩

/-- `EV.ROTL` (44_mode_controller.md R210). -/
def execEvRotl (s : State) : Result := runPanel (onRotateLeft s) s

/-- `EV.ROTR` (44_mode_controller.md R211). -/
def execEvRotr (s : State) : Result := runPanel (onRotateRight s) s

/-- `EV.CLICK` (44_mode_controller.md R212). -/
def execEvClick (s : State) : Result := runPanel (onClick s) s

/-- `EV.DCLICK` (44_mode_controller.md R213). -/
def execEvDclick (s : State) : Result := runPanel (onDoubleClick s) s

/-- `EV.HOLD` (44_mode_controller.md R214). -/
def execEvHold (s : State) : Result := runPanel (onHold s) s

/-- `EV.CANCEL` (44_mode_controller.md R215). -/
def execEvCancel (s : State) : Result := runPanel (onCancel s) s

end Sys2Proof.Machine
end

