-- ==== Sys2Proof/Machine/PatternStore.lean ====
section
/-! DEFINITION. The pattern store's commands: SAVE, STAGE (42_pattern_store.md). -/

namespace Sys2Proof.Machine

/-- `SAVE b` (42_pattern_store.md R172). -/
def execSave (b : Nat) (s : State) : Result := savePattern b s

/-- `STAGE b` (42_pattern_store.md R174). -/
def execStage (b : Nat) (s : State) : Result := .next (setNextPattern b s)

end Sys2Proof.Machine
end

