-- ==== Sys2Proof/Machine/Probability.lean ====
section
/-! DEFINITION. The commands that arm the Probability Source's overrides: FSET, FCLR
(40_probability.md). -/

namespace Sys2Proof.Machine

/-- `FSET` (40_probability.md R116). -/
def execFset (s : State) : Result := .next (s.setFset true)

/-- `FCLR` (40_probability.md R117). -/
def execFclr (s : State) : Result := .next (s.setFclr true)

end Sys2Proof.Machine
end

