-- ==== Sys2Proof/Machine/ShiftEngine.lean ====
section
/-! DEFINITION. The Shift Engine's commands: ITER, RSTE, CHLEN (41_shift_engine.md). -/

namespace Sys2Proof.Machine

/-- `ITER d, i` (41_shift_engine.md R136). -/
def execIter (d : Dir) (inPlace : Bool) (s : State) : Result := iterate d inPlace s

/-- `RSTE` (41_shift_engine.md R141 under DEFERRED, R142 under IMMEDIATE). -/
def execRste (s : State) : Result := .next (resetEdge s)

/-- `CHLEN d` (41_shift_engine.md R145). -/
def execChlen (d : Dir) (s : State) : Result := .next (changeLength d s)

end Sys2Proof.Machine
end

