-- ==== Sys2Proof/Machine/Dispatch.lean ====
section
/-! DEFINITION. One arm per command of 30_encoding.md R83, each one call of its meaning. -/

namespace Sys2Proof.Machine

def exec (i : Instr) (s : State) : Host.Outcome State Fault Refusal :=
  match i with
  | .nop => Sys2Proof.Machine.execNop s
  | .iter d inPlace => Sys2Proof.Machine.execIter d inPlace s
  | .rste => Sys2Proof.Machine.execRste s
  | .chlen d => Sys2Proof.Machine.execChlen d s
  | .save b => Sys2Proof.Machine.execSave b s
  | .stage b => Sys2Proof.Machine.execStage b s
  | .evRotl => Sys2Proof.Machine.execEvRotl s
  | .evRotr => Sys2Proof.Machine.execEvRotr s
  | .evClick => Sys2Proof.Machine.execEvClick s
  | .evDclick => Sys2Proof.Machine.execEvDclick s
  | .evHold => Sys2Proof.Machine.execEvHold s
  | .evCancel => Sys2Proof.Machine.execEvCancel s
  | .fset => Sys2Proof.Machine.execFset s
  | .fclr => Sys2Proof.Machine.execFclr s
  | .drunk => Sys2Proof.Machine.execDrunk s

end Sys2Proof.Machine
end

