-- ==== Sys2Proof/Machine/Outputs.lean ====
section
/-! DEFINITION. The output ports, each a function of the state after the last command (10_state.md
R40): the visible pattern and the trigger byte (43_outputs_aux.md R190 to R192), the mode indication
(R194) and the observation ports. -/

namespace Sys2Proof.Machine

/-- The output `vis = REG[7:0]` (43_outputs_aux.md R192). -/
def visOut (s : State) : Byte := s.reg.extractLsb' 0 8

/-- `PULSE_FNk(x)` (43_outputs_aux.md R190). -/
def pulseFn (f : PulseFn) (x : Byte) : Bool :=
  match f.op with
  | .and => x.getLsbD f.a.val && x.getLsbD f.b.val
  | .xor => Bool.xor (x.getLsbD f.a.val) (x.getLsbD f.b.val)

/-- Bit `k` of `pulseIt(x)` (43_outputs_aux.md R190). -/
def pulseBit (c : Params) (x : Byte) (k : Nat) : Bool :=
  match k with
  | 0 => x.getLsbD 0
  | 1 => !x.getLsbD 0
  | 2 => x.getLsbD 0 && x.getLsbD 3
  | 3 => pulseFn c.pulseFn3 x
  | 4 => Bool.xor (x.getLsbD 1) (x.getLsbD 6)
  | 5 => pulseFn c.pulseFn5 x
  | 6 => pulseFn c.pulseFn6 x
  | 7 => pulseFn c.pulseFn7 x
  | _ => false

/-- `pulseIt(x)`, pure and stateless (43_outputs_aux.md R190, R191). -/
def pulseIt (c : Params) (x : Byte) : Byte := ofBits (pulseBit c x) 8

/-- The output `trig` (10_state.md R40). -/
def trigOut (s : State) : Byte := pulseIt s.cfg (visOut s)

/-- The output `mode` (10_state.md R40). -/
def modeOut (s : State) : BitVec 2 := modeCode s.mode

/-- The output `slot` (10_state.md R40). -/
def slotOut (s : State) : BitVec 4 := s.slot

/-- The output `mode_ind`: 0 none, 1 solid, 2 slow blink, 3 fast blink (43_outputs_aux.md R194). -/
def modeIndOut (s : State) : BitVec 2 :=
  match s.mode with
  | .performance => 0
  | .changeLength => 1
  | .patternSave => 2
  | .patternLoad => 3

/-- The output `didx` (10_state.md R40). -/
def didxOut (s : State) : BitVec 3 := s.didx

/-- The observation port `status` (10_state.md R40), bit 15 first. -/
def statusOut (s : State) : Word :=
  s.slot ++ 0#2 ++ modeCode s.mode ++ 0#1 ++ BitVec.ofBool s.cmdErr ++ BitVec.ofBool s.fclr ++
    BitVec.ofBool s.fset ++ BitVec.ofBool s.npl ++ BitVec.ofBool s.wr ++ BitVec.ofBool s.nlp ++
    BitVec.ofBool s.rp

/-- The observation port `xport` (10_state.md R40), bit 31 first. -/
def xportOut (s : State) : BitVec 32 :=
  s.bank ++ s.didx ++ s.ofs ++ BitVec.ofNat 4 s.lidx.val ++ s.reg

/-- The observation port `xport2` (10_state.md R40), bit 15 first. -/
def xport2Out (s : State) : Word := BitVec.ofNat 4 (len s.lidx - 1) ++ s.mcCmd ++ s.next

end Sys2Proof.Machine
end

