-- ==== Sys2Proof/Machine/Step.lean ====
section
/-! DEFINITION. One step: the next command the environment presents is accepted, decoded and run; a
reserved word sets `CMD_ERR`; with nothing presented the block is idle (10_state.md R20). -/

namespace Sys2Proof.Machine

/-- The block's step (10_state.md R20, 30_encoding.md R84, R90, 60_exceptions.md R251). -/
def step (s : State) : Host.Outcome State Fault Refusal :=
  match fetch s with
  | none => .next (idle s)
  | some (w, t) =>
    match decode w with
    | .ok i => exec i t
    | .error _ => .next (reservedWord t)

/-- `s` with the command word `w` presented next, the ports and draws being those of `s`: the very
next step accepts it (log 2). -/
def State.withFetchWord (s : State) (nbits w : Nat) : State :=
  { s with script := ⟨BitVec.ofNat 16 (w % 2 ^ nbits), s.inp⟩ :: s.script }

end Sys2Proof.Machine
end

