-- ==== Sys2Proof/Safety.lean ====
section
/-! DEFINITION. What counts as a lawful state and a safe run, and the few notions the statements about
the machine use: the invariants of 10_state.md R39 and R36, which command runs a transport ITER, runs
of several steps, and scripts of transport ITERs. -/

namespace Sys2Proof.Machine

/-! ### Lawful states -/

/-- The invariants of 10_state.md R39, over parameters that satisfy 00_scope.md R7. The bounds on
`LIDX` and on the stored length indices hold by the type `LenIdx`. -/
abbrev Lawful (s : State) : Prop :=
  s.cfg.Valid ∧ (offsetOf s.ofs).natAbs < len s.lidx ∧ s.bank.toNat < s.cfg.nBanks ∧
    s.next.toNat < s.cfg.nBanks ∧ s.slot.toNat < s.cfg.nBanks ∧ Memory.wf s.cfg.nBanks s.store ∧
    (s.cfg.resetPolicy = .immediate → s.rp = false)

/-- The layout of `MC_CMD` (10_state.md R36): bit 7 is 0, the kind in bits 6..4 is not 7, and the
argument in bits 3..0 is a direction for Step and Length, a slot for Load and Save, 0 otherwise. -/
abbrev mcCmdLegal (banks : Nat) (m : Byte) : Prop :=
  m.getLsbD 7 = false ∧ m.extractLsb' 4 3 ≠ 7 ∧
    ((m.extractLsb' 4 3 = 2 ∨ m.extractLsb' 4 3 = 3) → m.extractLsb' 1 3 = 0) ∧
    ((m.extractLsb' 4 3 = 4 ∨ m.extractLsb' 4 3 = 5) → (m.extractLsb' 0 4).toNat < banks) ∧
    ((m.extractLsb' 4 3 = 0 ∨ m.extractLsb' 4 3 = 1 ∨ m.extractLsb' 4 3 = 6) → m.extractLsb' 0 4 = 0)

/-! ### Kinds of commands -/

/-- The panel events (30_encoding.md R83, the EV rows). -/
def isPanel : Instr → Bool
  | .evRotl => true
  | .evRotr => true
  | .evClick => true
  | .evDclick => true
  | .evHold => true
  | .evCancel => true
  | .nop => false
  | .iter _ _ => false
  | .rste => false
  | .chlen _ => false
  | .save _ => false
  | .stage _ => false
  | .fset => false
  | .fclr => false
  | .drunk => false

/-- The direction of the transport ITER (`inPlace = 0`) a command runs in a state, if it runs one: ITER
itself, or a panel Step where `STEP_IN_PLACE` is false (44_mode_controller.md R220). -/
def transportDir (i : Instr) (s : State) : Option Dir :=
  match i with
  | .iter d false => some d
  | .evRotl => if s.mode = .performance ∧ s.cfg.stepInPlace = false then some .bwd else none
  | .evRotr => if s.mode = .performance ∧ s.cfg.stepInPlace = false then some .fwd else none
  | .iter _ true => none
  | .nop => none
  | .rste => none
  | .chlen _ => none
  | .save _ => none
  | .stage _ => none
  | .evClick => none
  | .evDclick => none
  | .evHold => none
  | .evCancel => none
  | .fset => none
  | .fclr => none
  | .drunk => none

/-- The inputs under which the Probability Source returns the candidate with no draw
(40_probability.md R115), when no override is armed. -/
abbrev PassThrough (c : Params) (x : Inputs) : Prop :=
  c.pHigh < x.p ∧ (x.cv ≤ c.cvThresh ∨ c.cvRule = .lowOnly)

/-! ### Runs -/

/-- `k` steps, stopping at the first fault or refusal. -/
def runFor : Nat → State → Result
  | 0, s => .next s
  | k + 1, s =>
    match step s with
    | .next t => runFor k t
    | .fault r => .fault r
    | .refused r => .refused r

/-- `f` of the state a command leaves, faults and refusals as they are. -/
def mapNext (f : State → State) : Result → Result
  | .next t => .next (f t)
  | .fault r => .fault r
  | .refused r => .refused r

/-- The commands presented one after another, each with its inputs. -/
def present (cs : List (Instr × Inputs)) : List Presentation := cs.map fun c => ⟨encode c.1, c.2⟩

/-- Transport ITERs presented one after another, each with its direction and inputs. -/
def transports (ds : List (Dir × Inputs)) : List Presentation :=
  present (ds.map fun d => (.iter d.1 false, d.2))

/-- Transport ITERs all in one direction. -/
def transportsOf (d : Dir) (xs : List Inputs) : List Presentation :=
  transports (xs.map fun x => (d, x))

/-- The number of transport ITERs in direction `d` from offset `o` to the next downbeat of a loop of
length `L` (70_reset_and_hazards.md R267). -/
def stepsToDownbeat (d : Dir) (L : Nat) (o : Int) : Nat :=
  match d with
  | .fwd => if 0 ≤ o then L - o.toNat else o.natAbs
  | .bwd => if 0 < o then o.toNat else L - o.natAbs

end Sys2Proof.Machine
end

