-- ==== Sys2Proof/Certificates/Slice0/Obligations.lean ====
section
/-! DEFINITION. The statements for the provers, each a proposition about the model, from the numbered
rules of spec/. `Lawful s` is 10_state.md R39 over parameters that satisfy 00_scope.md R7. Every
statement holds for every value of the parameters (they are the state's field `cfg`) and of the draws
(the state's field `inp` and the script's). -/

open Sys2Proof Sys2Proof.Machine

/-! ### Reset and the whole machine -/

/-- 10_state.md R41: the power-on value of every state element, for every lawful choice of the
parameters; the machine after reset is the power-on state of the board (log 4), whose `INIT_LIDX` is
the spec's choice 6. -/
def Obligations.PowerOnHoldsTheSpecifiedValues : Prop :=
  (∀ c : Params, c.Valid →
    (State.powerOn c).store.length = c.nBanks ∧
    (∀ b, b < c.nBanks →
      storeRead (State.powerOn c).store b = some ⟨c.initPattern.getD b 0, c.initLidx⟩) ∧
    (State.powerOn c).reg = c.initPattern.getD 0 0 ∧
    (State.powerOn c).lidx = c.initLidx ∧ (State.powerOn c).ofs = 0 ∧
    (State.powerOn c).bank = 0 ∧ (State.powerOn c).next = 0 ∧
    (State.powerOn c).rp = false ∧ (State.powerOn c).nlp = false ∧
    (State.powerOn c).wr = false ∧ (State.powerOn c).npl = false ∧
    (State.powerOn c).fset = false ∧ (State.powerOn c).fclr = false ∧
    (State.powerOn c).didx = 0 ∧ (State.powerOn c).mode = .performance ∧
    (State.powerOn c).slot = 0 ∧ (State.powerOn c).mcCmd = 0x00 ∧
    (State.powerOn c).cmdErr = false) ∧
  State.reset = State.powerOn Config.board ∧ Config.board.initLidx = 6

/-- 10_state.md R39 and R36 at the reset state, and 00_scope.md R7 for the board's parameters. -/
def Obligations.ResetIsLawful : Prop :=
  Config.board.Valid ∧ Lawful State.reset ∧ mcCmdLegal State.reset.cfg.nBanks State.reset.mcCmd

/-- 10_state.md R39: the invariants hold at power-on and after every command. -/
def Obligations.InvariantsHoldAtPowerOnAndAfterEveryStep : Prop :=
  (∀ c : Params, c.Valid → Lawful (State.powerOn c)) ∧
  (∀ s t : State, Lawful s → step s = .next t → Lawful t)

/-- 60_exceptions.md R240, 10_state.md R20: from every lawful state and whatever commands, words and
inputs the environment presents (log 1), a run never stops, stays lawful, and takes one command a
step. -/
def Obligations.LawfulRunsNeverStop : Prop :=
  ∀ (s : State) (k : Nat), Lawful s →
    ∃ t, runFor k s = .next t ∧ Lawful t ∧ t.script = s.script.drop k

/-- 10_state.md R36: `MC_CMD` keeps its layout over every step. -/
def Obligations.EmittedCommandCodeKeepsItsLayout : Prop :=
  ∀ s t : State, Lawful s → mcCmdLegal s.cfg.nBanks s.mcCmd → step s = .next t →
    mcCmdLegal t.cfg.nBanks t.mcCmd

/-- 10_state.md R37: `CMD_ERR` is sticky and no command writes it; 70_reset_and_hazards.md R263: the
parameters do not change. -/
def Obligations.CommandErrorIsStickyAndParametersAreConstant : Prop :=
  (∀ s t : State, step s = .next t → t.cfg = s.cfg ∧ (s.cmdErr = true → t.cmdErr = true) ∧
    (s.cmdErr = false →
      (t.cmdErr = true ↔ ∃ c r, s.script.head? = some c ∧ decode c.cmd = .error r))) ∧
  (∀ (i : Instr) (s t : State), exec i s = .next t → t.cmdErr = s.cmdErr ∧ t.cfg = s.cfg ∧
    t.inp = s.inp ∧ t.script = s.script)

/-! ### Encoding -/

/-- Decoding the word of a well-formed command gives the command back (30_encoding.md R81 to R84). -/
def Obligations.DecodeOfEncodeIsTheCommand : Prop :=
  ∀ i : Instr, i.WellFormed → decode (encode i) = .ok i

/-- A word that decodes is the word of the command it decodes to, which is well formed. -/
def Obligations.DecodedWordIsTheCommandsWord : Prop :=
  ∀ (w : Word) (i : Instr), decode w = .ok i → i.WellFormed ∧ encode i = w

/-- 30_encoding.md R83: no word matches two rows of the opcode map, and 49 words are valid. -/
def Obligations.OpcodeRowsAreDisjointAndFortyNineWordsAreValid : Prop :=
  opRows.Pairwise (fun r q => ∀ w : Word, ¬ (r.accepts w = true ∧ q.accepts w = true)) ∧
  ∃ l : List Word, l.Nodup ∧ l.length = 49 ∧ ∀ w, w ∈ l ↔ ∃ i, decode w = .ok i

/-- 30_encoding.md R89: which words are reserved, and that NOP is the only command without effect. -/
def Obligations.ReservedWordsAreExactlyTheListed : Prop :=
  (∀ w : Word, (∃ r, decode w = .error r) ↔
    (9 ≤ (w.extractLsb' 12 4).toNat ∨
    ((w.extractLsb' 12 4 = 0x0 ∨ w.extractLsb' 12 4 = 0x2 ∨ w.extractLsb' 12 4 = 0x8) ∧
      w.extractLsb' 0 12 ≠ 0) ∨
    (w.extractLsb' 12 4 = 0x1 ∧ w.extractLsb' 2 10 ≠ 0) ∨
    (w.extractLsb' 12 4 = 0x3 ∧ w.extractLsb' 1 11 ≠ 0) ∨
    ((w.extractLsb' 12 4 = 0x4 ∨ w.extractLsb' 12 4 = 0x5) ∧ w.extractLsb' 4 8 ≠ 0) ∨
    (w.extractLsb' 12 4 = 0x6 ∧ 6 ≤ (w.extractLsb' 0 12).toNat) ∨
    (w.extractLsb' 12 4 = 0x7 ∧ 2 ≤ (w.extractLsb' 0 12).toNat))) ∧
  (∀ i : Instr, (∀ s : State, Lawful s → exec i s = .next s) ↔ i = .nop)

/-- Words written out from 30_encoding.md R83 and R92 and the commands they stand for. -/
def Obligations.WrittenOutWordsDecode : Prop :=
  decode 0b0000000000000000 = .ok .nop ∧ decode 0b0001000000000000 = .ok (.iter .fwd false) ∧
  decode 0b0001000000000001 = .ok (.iter .bwd false) ∧
  decode 0b0001000000000010 = .ok (.iter .fwd true) ∧ decode 0b0010000000000000 = .ok .rste ∧
  decode 0b0011000000000001 = .ok (.chlen .bwd) ∧ decode 0b0100000000001011 = .ok (.save 11) ∧
  decode 0b0101000000000110 = .ok (.stage 6) ∧ decode 0b0110000000000011 = .ok .evDclick ∧
  decode 0b0111000000000001 = .ok .fclr ∧ decode 0b1000000000000000 = .ok .drunk

/-- 30_encoding.md R91, R92: every well-formed command has a line of assembly, which assembles to the
command, and each pseudo-instruction assembles to the word of the table. -/
def Obligations.AssemblyRoundTrip : Prop :=
  (∀ i : Instr, i.WellFormed → ∃ l, i.toAsm = some l ∧ assemble l = some i) ∧
  (assemble ⟨"CLOCK", []⟩).map encode = some 0x1000 ∧
  (assemble ⟨"STEPB", []⟩).map encode = some 0x1001 ∧
  (assemble ⟨"PREVF", []⟩).map encode = some 0x1002 ∧
  (assemble ⟨"PREVB", []⟩).map encode = some 0x1003 ∧
  (assemble ⟨"LONGER", []⟩).map encode = some 0x3000 ∧
  (assemble ⟨"SHORTER", []⟩).map encode = some 0x3001

/-! ### The step -/

/-- 10_state.md R20, R33: the step accepts the next presented command, samples its inputs, and runs the
command its word decodes to; nothing but the sampled inputs and the script changes before it. (That the
environment's future stands in `script` is the model's choice: log 1.) -/
def Obligations.StepRunsThePresentedCommand : Prop :=
  ∀ (s : State) (c : Presentation) (rest : List Presentation) (i : Instr),
    s.script = c :: rest → decode c.cmd = .ok i →
      step s = exec i { s with inp := c.inp, script := rest }

/-- 30_encoding.md R90: a reserved word sets `CMD_ERR` and changes nothing else; of the outputs only
bit 6 of `status` changes. (`inp` and `script` are the model's own fields: log 1.) -/
def Obligations.ReservedWordSetsOnlyCommandError : Prop :=
  ∀ (s : State) (c : Presentation) (rest : List Presentation) (r : Reject),
    s.script = c :: rest → decode c.cmd = .error r →
      ∃ t, step s = .next t ∧ t = { s with cmdErr := true, inp := c.inp, script := rest } ∧
        visOut t = visOut s ∧ trigOut t = trigOut s ∧ modeOut t = modeOut s ∧
        slotOut t = slotOut s ∧ modeIndOut t = modeIndOut s ∧ didxOut t = didxOut s ∧
        xportOut t = xportOut s ∧ xport2Out t = xport2Out s ∧
        (∀ k, k < 16 → (statusOut t).getLsbD k = if k = 6 then true else (statusOut s).getLsbD k)

/-- 60_exceptions.md R251: with nothing presented the block holds its state, however long. (That an
empty `script` is the idle block is the model's choice: log 1.) -/
def Obligations.IdleBlockHoldsItsState : Prop :=
  ∀ (s : State) (k : Nat), s.script = [] → runFor k s = .next s

/-! ### NOP, FSET, FCLR, DRUNK -/

/-- 43_outputs_aux.md R200: the word of NOP, and that it changes nothing. -/
def Obligations.NopLeavesTheStateUnchanged : Prop :=
  encode .nop = 0x0000 ∧ ∀ s : State, exec .nop s = .next s

/-- 40_probability.md R116, R117: FSET and FCLR arm their flag and change nothing else; an armed flag
survives every command that does not run a transport ITER, and a transport ITER that takes a pending
reset; with both armed the next call uses `FSET` and leaves `FCLR`. -/
def Obligations.ForceCommandsArmTheirOverride : Prop :=
  (∀ s : State, exec .fset s = .next { s with fset := true } ∧
    exec .fclr s = .next { s with fclr := true }) ∧
  (∀ (i : Instr) (s t : State), exec i s = .next t → (transportDir i s = none ∨ s.rp = true) →
    (s.fset = true → t.fset = true) ∧ (s.fclr = true → t.fclr = true)) ∧
  (∀ (s : State) (c : Bool), s.fset = true → s.fclr = true →
    (stochasticize s c).1 = true ∧ (stochasticize s c).2.fset = false ∧
      (stochasticize s c).2.fclr = true)

/-- 43_outputs_aux.md R198 and 10_state.md R32: DRUNK moves the index by `s * m` modulo 8 for whatever
draws are supplied and changes nothing else; no other command touches it. -/
def Obligations.DrunkWalksModuloEight : Prop :=
  encode .drunk = 0x8000 ∧
  (∀ s : State, ∃ t, exec .drunk s = .next t ∧ t = { s with didx := t.didx } ∧
    (t.didx.toNat : Int) = ((s.didx.toNat : Int) +
      (match s.inp.s with | .plus => 1 | .minus => -1) *
        (match s.inp.m with | .one => 1 | .two => 2 | .three => 3)) % 8) ∧
  (∀ (i : Instr) (s t : State), i ≠ .drunk → exec i s = .next t → t.didx = s.didx)

/-! ### The Probability Source -/

/-- 40_probability.md R111, R112, R114: the whole function, with its bands, its overrides and the state
it leaves. -/
def Obligations.StochasticizeFollowsItsBands : Prop :=
  ∀ (s : State) (c : Bool),
    (s.fset = true → stochasticize s c = (true, { s with fset := false })) ∧
    (s.fset = false → s.fclr = true → stochasticize s c = (false, { s with fclr := false })) ∧
    (s.fset = false → s.fclr = false →
      (s.cfg.pHigh < s.inp.p → stochasticize s c =
        (if (s.cfg.cvRule = .highOnly ∨ s.cfg.cvRule = .both) ∧ s.cfg.cvThresh < s.inp.cv
          then !c else c, s)) ∧
      (s.inp.p ≤ s.cfg.pHigh → s.inp.p < s.cfg.pLow → stochasticize s c =
        (if (s.cfg.cvRule = .lowOnly ∨ s.cfg.cvRule = .both) ∧ s.cfg.cvThresh < s.inp.cv
          then c else !c, s)) ∧
      (s.cfg.pLow ≤ s.inp.p → s.inp.p ≤ s.cfg.pHigh → stochasticize s c =
        (if s.inp.p ≤ s.inp.r then !c else c, s)))

/-- 40_probability.md R115, its condition completed (log 12): `stochasticize` returns the candidate for
every candidate and every draw, changing no flag, exactly when no override is armed and either the
condition of R115 holds or, in the low band, the CV inverts the inverted candidate back. -/
def Obligations.PassThroughCondition : Prop :=
  ∀ s : State, s.cfg.Valid →
    ((∀ (r : Nat) (c : Bool), stochasticize { s with inp := { s.inp with r := r } } c =
        (c, { s with inp := { s.inp with r := r } })) ↔
      s.fset = false ∧ s.fclr = false ∧
        (PassThrough s.cfg s.inp ∨
          (s.inp.p < s.cfg.pLow ∧ s.cfg.cvThresh < s.inp.cv ∧ s.cfg.cvRule ≠ .highOnly)))

/-- 70_reset_and_hazards.md R269: an override is consumed by the next transport ITER that does not take
a pending reset, `FSET` first, and by nothing else. -/
def Obligations.OverridesAreConsumedOnlyByTransportSteps : Prop :=
  ∀ (i : Instr) (s t : State), exec i s = .next t → i ≠ .fset → i ≠ .fclr →
    (t.fset = if (transportDir i s).isSome ∧ s.rp = false then false else s.fset) ∧
    (t.fclr = if (transportDir i s).isSome ∧ s.rp = false ∧ s.fset = false then false else s.fclr)

/-! ### ITER -/

/-- 41_shift_engine.md R134 with the bits of R131 and R132: an in-place ITER rotates the register with
the unmodified tap bit and changes nothing else. -/
def Obligations.InPlaceIterOnlyRotates : Prop :=
  ∀ (d : Dir) (s : State), ∃ t, exec (.iter d true) s = .next t ∧ t = { s with reg := t.reg } ∧
    ∀ j, j < 16 → t.reg.getLsbD j =
      match d with
      | .fwd => if j = 0 then s.reg.getLsbD (len s.lidx - 1) else s.reg.getLsbD (j - 1)
      | .bwd => if j = 7 then s.reg.getLsbD ((24 - len s.lidx) % 16)
          else s.reg.getLsbD ((j + 1) % 16)

/-- 41_shift_engine.md R136, first case: a transport ITER that finds a reset pending only zeroes the
offset: no rotation, no override consumed, no load. -/
def Obligations.TransportIterTakesThePendingReset : Prop :=
  ∀ (d : Dir) (s : State), s.rp = true →
    exec (.iter d false) s =
      .next { s with rp := false, wr := true, npl := false, ofs := 0 }

/-- 41_shift_engine.md R136, R131, R132, R135: a transport ITER with no reset pending whose load does
not fire. The fed-back bit is what `stochasticize` returns for the tap bit. -/
def Obligations.TransportIterRotatesAndAdvances : Prop :=
  ∀ (d : Dir) (s : State), Lawful s → s.rp = false →
    (s.nlp = true → offsetOf s.ofs + dirStep d ≠ 0 ∧
      (offsetOf s.ofs + dirStep d).natAbs ≠ len s.lidx) →
    ∃ t, exec (.iter d false) s = .next t ∧
      t = { s with
        reg := t.reg, ofs := t.ofs, wr := false, npl := false, fset := false,
        fclr := if s.fset then s.fclr else false } ∧
      offsetOf t.ofs = (if (offsetOf s.ofs + dirStep d).natAbs = len s.lidx then 0
        else offsetOf s.ofs + dirStep d) ∧
      ∀ j, j < 16 → t.reg.getLsbD j =
        match d with
        | .fwd => if j = 0 then (stochasticize s (s.reg.getLsbD (len s.lidx - 1))).1
            else s.reg.getLsbD (j - 1)
        | .bwd => if j = 7 then (stochasticize s (s.reg.getLsbD ((24 - len s.lidx) % 16))).1
            else s.reg.getLsbD ((j + 1) % 16)

/-- 42_pattern_store.md R177, 41_shift_engine.md R136: a transport ITER with a bank staged whose new
offset is 0 loads the staged bank; the store is read at that moment. -/
def Obligations.TransportIterLoadsAtTheDownbeat : Prop :=
  ∀ (d : Dir) (s : State), Lawful s → s.rp = false → s.nlp = true →
    (offsetOf s.ofs + dirStep d = 0 ∨ (offsetOf s.ofs + dirStep d).natAbs = len s.lidx) →
    ∃ e, storeRead s.store s.next.toNat = some e ∧
      exec (.iter d false) s = .next { s with
        reg := e.pattern, lidx := e.lidx, ofs := 0, bank := s.next, nlp := false, npl := true,
        wr := false, fset := false, fclr := if s.fset then s.fclr else false }

/-- 42_pattern_store.md R176: a staged load fires exactly inside a transport ITER that takes no reset
and whose new offset is 0; otherwise it stays staged, and without it neither the current bank nor
`NPL` is set. -/
def Obligations.StagedLoadFiresOnlyAtADownbeat : Prop :=
  ∀ (i : Instr) (s t : State), Lawful s → exec i s = .next t →
    (s.nlp = true →
      (t.nlp = false ↔ ∃ d, transportDir i s = some d ∧ s.rp = false ∧
        (offsetOf s.ofs + dirStep d = 0 ∨ (offsetOf s.ofs + dirStep d).natAbs = len s.lidx))) ∧
    (t.bank ≠ s.bank → s.nlp = true ∧ t.nlp = false) ∧
    (s.npl = false → t.npl = true → s.nlp = true ∧ t.nlp = false)

/-- 41_shift_engine.md R135: the offset advance, its wrap at `±L` only, and the bound it keeps. -/
def Obligations.OffsetAdvanceWrapsAtTheLength : Prop :=
  ∀ (o : BitVec 5) (l : LenIdx) (d : Dir), (offsetOf o).natAbs < len l →
    (offsetOf (adv o (len l) d) =
      if (offsetOf o + (match d with | .fwd => 1 | .bwd => -1)).natAbs = len l then 0
      else offsetOf o + (match d with | .fwd => 1 | .bwd => -1)) ∧
    (offsetOf (adv o (len l) d)).natAbs < len l

/-! ### Rotation to step zero, RSTE -/

/-- 41_shift_engine.md R137: what `rotateToZero` does to every bit, under either kind. -/
def Obligations.RotateToZeroMovesEveryBit : Prop :=
  (∀ (L : Nat) (v : Word) (o : Int), o.natAbs < 16 → ∀ i, i < 16 →
    (rotateToZero .word16 L v o).getLsbD i = v.getLsbD (((i : Int) + o) % 16).toNat) ∧
  (∀ (l : LenIdx) (v : Word) (o : Int), o ≠ 0 → o.natAbs < len l →
    (∀ j, j < len l →
      (rotateToZero .loopWindow (len l) v o).getLsbD (windowPos (decide (o < 0)) (len l) j) =
        v.getLsbD (windowPos (decide (o < 0)) (len l) (((j : Int) + o) % (len l : Int)).toNat)) ∧
    (∀ i, i < 16 → (∀ j, j < len l → windowPos (decide (o < 0)) (len l) j ≠ i) →
      (rotateToZero .loopWindow (len l) v o).getLsbD i = v.getLsbD i))

/-- 41_shift_engine.md R138: the two rotations are exact inverses for every word and every offset in
range, under either kind. -/
def Obligations.RotateToCurrentStepInvertsRotateToZero : Prop :=
  ∀ (z : ZeroRotation) (l : LenIdx) (v : Word) (o : Int), o.natAbs < len l →
    rotateToCurrentStep z (len l) (rotateToZero z (len l) v o) o = v ∧
    rotateToZero z (len l) (rotateToCurrentStep z (len l) v o) o = v

/-- 41_shift_engine.md R141, R142: RSTE under each policy, and that a second RSTE changes nothing. -/
def Obligations.ResetEdgeRotatesToStepZero : Prop :=
  (∀ s : State, s.cfg.resetPolicy = .deferred →
    exec .rste s = .next { s with
      reg := rotateToZero s.cfg.zeroRotation (len s.lidx) s.reg
        (if s.rp then 0 else offsetOf s.ofs),
      rp := true }) ∧
  (∀ s : State, s.cfg.resetPolicy = .immediate →
    exec .rste s = .next { s with
      reg := rotateToZero s.cfg.zeroRotation (len s.lidx) s.reg (offsetOf s.ofs),
      ofs := 0, wr := true }) ∧
  (∀ s t : State, exec .rste s = .next t → exec .rste t = .next t)

/-- 70_reset_and_hazards.md R266: under the deferred policy the transport ITER after an RSTE plays step
0: it leaves the register as RSTE left it, zeroes the offset and reports the reset. -/
def Obligations.DeferredResetIsTakenByTheNextTransportStep : Prop :=
  ∀ (d : Dir) (s : State), s.cfg.resetPolicy = .deferred →
    ∃ t u, exec .rste s = .next t ∧ exec (.iter d false) t = .next u ∧
      u = { s with reg := t.reg, ofs := 0, rp := false, wr := true, npl := false }

/-- 41_shift_engine.md R139, R133: after `k` transport ITERs in one direction from a downbeat with
pass-through inputs and no staged load, RSTE restores the loop bits: always under LOOP_WINDOW, and
under WORD16 for L = 16 and whenever `k ≤ 16 - L`. -/
def Obligations.ResetAfterPureStepsRestoresTheLoop : Prop :=
  ∀ (d : Dir) (s : State) (xs : List Inputs) (x : Inputs), Lawful s →
    s.ofs = 0 → s.rp = false → s.nlp = false → s.fset = false → s.fclr = false →
    (∀ y ∈ xs, PassThrough s.cfg y) → 1 ≤ xs.length → xs.length < len s.lidx →
    (s.cfg.zeroRotation = .loopWindow ∨ len s.lidx = 16 ∨ xs.length ≤ 16 - len s.lidx) →
    s.script = transportsOf d xs ++ present [(.rste, x)] →
    ∃ t, runFor (xs.length + 1) s = .next t ∧ t.lidx = s.lidx ∧
      ∀ j, j < len s.lidx →
        t.reg.getLsbD (windowPos (decide (d = .bwd)) (len s.lidx) j) =
          s.reg.getLsbD (windowPos (decide (d = .bwd)) (len s.lidx) j)

/-- 41_shift_engine.md R133: `L` in-place steps in one direction bring the loop bits of that direction
back to their values. -/
def Obligations.InPlaceLoopsCloseAfterTheLength : Prop :=
  ∀ (d : Dir) (s : State) (xs : List Inputs),
    xs.length = len s.lidx → s.script = present (xs.map fun x => (.iter d true, x)) →
    ∃ t, runFor (len s.lidx) s = .next t ∧ t.ofs = s.ofs ∧
      ∀ j, j < len s.lidx →
        t.reg.getLsbD (windowPos (decide (d = .bwd)) (len s.lidx) j) =
          s.reg.getLsbD (windowPos (decide (d = .bwd)) (len s.lidx) j)

/-- 41_shift_engine.md R133, 70_reset_and_hazards.md R268: an in-place step and its reverse restore the
low byte for L = 8, the whole register for L = 16, and the low byte of a register made by `norm` for
every L up to 8; for every other length some lawful state does not get its low byte back, and for
L = 8 some lawful state does not get its register back. -/
def Obligations.ReversalRestoresOnlyFullLoops : Prop :=
  (∀ (d e : Dir) (s t u : State), d ≠ e →
    exec (.iter d true) s = .next t → exec (.iter e true) t = .next u →
    (len s.lidx = 8 → visOut u = visOut s) ∧ (len s.lidx = 16 → u = s) ∧
    (len s.lidx ≤ 8 → (∃ v, s.reg = normPattern v (len s.lidx)) → visOut u = visOut s)) ∧
  (∀ (d e : Dir) (l : LenIdx), d ≠ e →
    (len l ≠ 8 → len l ≠ 16 → ∃ s t u, Lawful s ∧ s.lidx = l ∧
      exec (.iter d true) s = .next t ∧ exec (.iter e true) t = .next u ∧ visOut u ≠ visOut s) ∧
    (len l = 8 → ∃ s t u, Lawful s ∧ s.lidx = l ∧
      exec (.iter d true) s = .next t ∧ exec (.iter e true) t = .next u ∧ u.reg ≠ s.reg))

/-! ### CHLEN -/

/-- 41_shift_engine.md R145: the length moves one table entry, or nothing changes at an edge; the
offset is re-normalised with its sign kept and a lengthening leaves it alone. -/
def Obligations.ChangeLengthMovesOneTableEntry : Prop :=
  encode (.chlen .fwd) = 0x3000 ∧ encode (.chlen .bwd) = 0x3001 ∧ ∀ (d : Dir) (s : State), Lawful s →
    ((d = .fwd ∧ s.lidx.val = 12) ∨ (d = .bwd ∧ s.lidx.val = 0) →
      exec (.chlen d) s = .next s) ∧
    (¬ ((d = .fwd ∧ s.lidx.val = 12) ∨ (d = .bwd ∧ s.lidx.val = 0)) →
      ∃ t, exec (.chlen d) s = .next t ∧ t = { s with lidx := t.lidx, ofs := t.ofs } ∧
        (t.lidx.val : Int) = s.lidx.val + (match d with | .fwd => 1 | .bwd => -1) ∧
        offsetOf t.ofs = (offsetOf s.ofs).sign *
          (((offsetOf s.ofs).natAbs % len t.lidx : Nat) : Int) ∧
        (offsetOf t.ofs).natAbs < len t.lidx ∧ (d = .fwd → t.ofs = s.ofs))

/-! ### The pattern store -/

/-- 42_pattern_store.md R171: the bits of `norm`, its properties and its examples. -/
def Obligations.NormReplicatesTheLoop : Prop :=
  (∀ (v : Word) (l : LenIdx),
    (∀ j, j < 16 → (normPattern v (len l)).getLsbD j = v.getLsbD (j % len l)) ∧
    (∀ j, j < len l → (normPattern v (len l)).getLsbD j = v.getLsbD j) ∧
    (∀ j, len l ≤ j → j < 16 →
      (normPattern v (len l)).getLsbD j = (normPattern v (len l)).getLsbD (j - len l)) ∧
    (len l = 16 → normPattern v (len l) = v)) ∧
  normPattern 0x0005 3 = 0xDB6D ∧ normPattern 0x0006 2 = 0xAAAA ∧ normPattern 0x00B5 8 = 0xB5B5 ∧
  normPattern 0x0001 5 = 0x8421

/-- 42_pattern_store.md R172, 20_memory.md R62: SAVE writes bank `b mod N_BANKS` with the normalised
step-0 pattern and the length, reads as before in every other bank, and changes no other state. -/
def Obligations.SaveWritesOneBank : Prop :=
  (∀ b, b < 16 → encode (.save b) = BitVec.ofNat 16 (0x4000 + b)) ∧
  ∀ (b : Nat) (s : State), Lawful s →
    ∃ t, exec (.save b) s = .next t ∧ t = { s with store := t.store } ∧
      ∀ a, storeRead t.store a =
        if a = b % s.cfg.nBanks then
          some ⟨normPattern (rotateToZero s.cfg.zeroRotation (len s.lidx) s.reg
            (if s.rp then 0 else offsetOf s.ofs)) (len s.lidx), s.lidx⟩
        else storeRead s.store a

/-- 42_pattern_store.md R174: STAGE records bank `b mod N_BANKS` and changes nothing else; the last
staged bank wins. -/
def Obligations.StageRecordsTheBank : Prop :=
  (∀ b, b < 16 → encode (.stage b) = BitVec.ofNat 16 (0x5000 + b)) ∧
  (∀ (b : Nat) (s : State), Lawful s →
    ∃ t, exec (.stage b) s = .next t ∧ t = { s with next := t.next, nlp := true } ∧
      t.next.toNat = b % s.cfg.nBanks) ∧
  (∀ (a b : Nat) (s t : State), exec (.stage a) s = .next t →
    exec (.stage b) t = exec (.stage b) s)

/-- 70_reset_and_hazards.md R267: with a bank staged and no reset pending, transport ITERs in one
direction load it after exactly the number of steps of R267, whatever the inputs and draws: up to then
it stays staged, and then the working register and length are the stored ones. -/
def Obligations.StagedLoadLatency : Prop :=
  ∀ (d : Dir) (s : State) (xs : List Inputs) (rest : List Presentation),
    Lawful s → s.rp = false → s.nlp = true →
    xs.length = stepsToDownbeat d (len s.lidx) (offsetOf s.ofs) →
    s.script = transportsOf d xs ++ rest →
    (∀ k, k < xs.length → ∃ u, runFor k s = .next u ∧ u.nlp = true ∧ u.lidx = s.lidx ∧
      u.bank = s.bank ∧ u.store = s.store) ∧
    ∃ t e, runFor xs.length s = .next t ∧ storeRead s.store s.next.toNat = some e ∧
      t.reg = e.pattern ∧ t.lidx = e.lidx ∧ t.ofs = 0 ∧ t.bank = s.next ∧ t.nlp = false ∧
      t.npl = true ∧ t.script = rest

/-- 42_pattern_store.md R178, 20_memory.md R65: SAVE and STAGE of one bank, in either order, then
transport ITERs in any directions with any inputs: the first of them that clears the staged load
leaves exactly the register and length that were saved. -/
def Obligations.SaveThenStageReproducesTheSavedPattern : Prop :=
  ∀ (b : Nat) (s : State) (x y : Inputs) (ds : List (Dir × Inputs)) (t : State),
    Lawful s →
    (s.script = present [(.save b, x), (.stage b, y)] ++ transports ds ∨
      s.script = present [(.stage b, x), (.save b, y)] ++ transports ds) →
    b < 16 → runFor (2 + ds.length) s = .next t → t.nlp = false →
    (∀ k, k < ds.length → ∀ u, runFor (2 + k) s = .next u → u.nlp = true) →
    t.reg = normPattern (rotateToZero s.cfg.zeroRotation (len s.lidx) s.reg
      (if s.rp then 0 else offsetOf s.ofs)) (len s.lidx) ∧
    t.lidx = s.lidx ∧ t.bank.toNat = b % s.cfg.nBanks ∧ t.ofs = 0

/-- 20_memory.md R62, 42_pattern_store.md R172, 44_mode_controller.md R214: the store is written only by
SAVE and by EV.HOLD in PatternSave; SAVE writes no bank but its operand's and EV.HOLD none but the
slot's, either reduced modulo `N_BANKS`, which leaves the slot of a lawful state as it is. -/
def Obligations.StoreIsWrittenOnlyBySaves : Prop :=
  (∀ (i : Instr) (s t : State), exec i s = .next t → t.store ≠ s.store →
    (∃ b, i = .save b) ∨ (i = .evHold ∧ s.mode = .patternSave)) ∧
  (∀ (b : Nat) (s t : State), exec (.save b) s = .next t →
    (reduceBank s.cfg b).toNat < s.store.length ∧
    ∀ a, a ≠ (reduceBank s.cfg b).toNat → storeRead t.store a = storeRead s.store a) ∧
  (∀ s t : State, s.mode = .patternSave → exec .evHold s = .next t →
    (reduceBank s.cfg s.slot.toNat).toNat < s.store.length ∧
    ∀ a, a ≠ (reduceBank s.cfg s.slot.toNat).toNat → storeRead t.store a = storeRead s.store a) ∧
  (∀ s : State, Lawful s → (reduceBank s.cfg s.slot.toNat).toNat = s.slot.toNat)

/-! ### The Mode Controller -/

/-- 44_mode_controller.md R210, R211, with the dispatch of R220: the words of RotateLeft and RotateRight
and their effect in each mode, a Step being the ITER of R220 and a Length the CHLEN. -/
def Obligations.RotateEventsStepLengthenOrMoveTheSlot : Prop :=
  encode .evRotl = 0x6000 ∧ encode .evRotr = 0x6001 ∧ ∀ s : State, Lawful s →
    (s.mode = .performance →
      (∃ t, exec .evRotl s = .next t ∧
        exec (.iter .bwd s.cfg.stepInPlace) { s with mcCmd := 0x21 } = .next t) ∧
      (∃ t, exec .evRotr s = .next t ∧
        exec (.iter .fwd s.cfg.stepInPlace) { s with mcCmd := 0x20 } = .next t)) ∧
    (s.mode = .changeLength →
      (∃ t, exec .evRotl s = .next t ∧ exec (.chlen .bwd) { s with mcCmd := 0x31 } = .next t) ∧
      (∃ t, exec .evRotr s = .next t ∧ exec (.chlen .fwd) { s with mcCmd := 0x30 } = .next t)) ∧
    (s.mode = .patternSave ∨ s.mode = .patternLoad →
      (∃ t, exec .evRotl s = .next t ∧ t = { s with slot := t.slot, mcCmd := 0x60 } ∧
        (t.slot.toNat : Int) = ((s.slot.toNat : Int) - 1) % (s.cfg.nBanks : Int)) ∧
      (∃ t, exec .evRotr s = .next t ∧ t = { s with slot := t.slot, mcCmd := 0x60 } ∧
        (t.slot.toNat : Int) = ((s.slot.toNat : Int) + 1) % (s.cfg.nBanks : Int)))

/-- 44_mode_controller.md R212, R215: Click and Cancel in each mode. -/
def Obligations.ClickAndCancelEvents : Prop :=
  encode .evClick = 0x6002 ∧ encode .evCancel = 0x6005 ∧ ∀ s : State,
    exec .evClick s = .next (match s.mode with
      | .performance => { s with mode := .changeLength, mcCmd := 0x10 }
      | .changeLength => { s with mode := .performance, mcCmd := 0x10 }
      | .patternSave => { s with mcCmd := 0x00 }
      | .patternLoad => { s with mcCmd := 0x00 }) ∧
    exec .evCancel s = .next { s with mode := .performance, mcCmd := 0x10 }

/-- 44_mode_controller.md R213: DoubleClick in each mode; the confirming one stages the slot. -/
def Obligations.DoubleClickEntersAndConfirmsALoad : Prop :=
  encode .evDclick = 0x6003 ∧ ∀ s : State, Lawful s →
    exec .evDclick s = .next (match s.mode with
      | .performance => { s with mode := .patternLoad, mcCmd := 0x10 }
      | .changeLength => { s with mcCmd := 0x00 }
      | .patternSave => { s with mcCmd := 0x00 }
      | .patternLoad => { s with
          mode := .performance, mcCmd := 0x40 + s.slot.setWidth 8, next := s.slot, nlp := true })

/-- 44_mode_controller.md R214: Hold in each mode; the confirming one saves into the slot at once. -/
def Obligations.HoldEntersAndConfirmsASave : Prop :=
  encode .evHold = 0x6004 ∧ ∀ s : State, Lawful s →
    (s.mode = .performance →
      exec .evHold s = .next { s with mode := .patternSave, mcCmd := 0x10 }) ∧
    (s.mode = .changeLength ∨ s.mode = .patternLoad →
      exec .evHold s = .next { s with mcCmd := 0x00 }) ∧
    (s.mode = .patternSave →
      ∃ t, exec .evHold s = .next t ∧
        t = { s with
          mode := .performance, mcCmd := 0x50 + s.slot.setWidth 8, store := t.store } ∧
        ∀ a, storeRead t.store a =
          if a = s.slot.toNat then
            some ⟨normPattern (rotateToZero s.cfg.zeroRotation (len s.lidx) s.reg
              (if s.rp then 0 else offsetOf s.ofs)) (len s.lidx), s.lidx⟩
          else storeRead s.store a)

/-- 44_mode_controller.md R218: no command but a panel event writes `MODE`, `SLOT` or `MC_CMD`. -/
def Obligations.OnlyPanelEventsWriteTheModeController : Prop :=
  ∀ (i : Instr) (s t : State), exec i s = .next t → isPanel i = false →
    t.mode = s.mode ∧ t.slot = s.slot ∧ t.mcCmd = s.mcCmd

/-! ### Who writes what, who reads the inputs -/

/-- 10_state.md R22 to R27: the writers of `REG`, `LIDX`, `OFS`, `NEXT` and `RP`. A panel rotation in
Performance runs an ITER, in ChangeLength a CHLEN; a confirming double-click runs a STAGE. -/
def Obligations.EngineRegistersHaveOnlyTheirWriters : Prop :=
  ∀ (i : Instr) (s t : State), exec i s = .next t →
    (t.reg ≠ s.reg → (∃ d p, i = .iter d p) ∨ i = .rste ∨
      ((i = .evRotl ∨ i = .evRotr) ∧ s.mode = .performance)) ∧
    (t.lidx ≠ s.lidx → (∃ d, i = .chlen d) ∨
      ((i = .evRotl ∨ i = .evRotr) ∧ s.mode = .changeLength) ∨ (s.nlp = true ∧ t.nlp = false)) ∧
    (t.ofs ≠ s.ofs → (∃ d, i = .iter d false) ∨ (∃ d, i = .chlen d) ∨
      (i = .rste ∧ s.cfg.resetPolicy = .immediate) ∨
      ((i = .evRotl ∨ i = .evRotr) ∧ (s.mode = .performance ∨ s.mode = .changeLength))) ∧
    (t.next ≠ s.next → (∃ b, i = .stage b) ∨ (i = .evDclick ∧ s.mode = .patternLoad)) ∧
    (t.rp ≠ s.rp → (i = .rste ∧ t.rp = true ∧ s.cfg.resetPolicy = .deferred) ∨
      ((transportDir i s).isSome ∧ t.rp = false))

/-- 10_state.md R33, 40_probability.md R110 to R113, 43_outputs_aux.md R198: the ports and draws
influence only DRUNK and a transport ITER that takes no reset and finds no override armed. -/
def Obligations.InputsMatterOnlyToTransportStepsAndDrunk : Prop :=
  ∀ (i : Instr) (s : State) (x : Inputs), i ≠ .drunk →
    (transportDir i s = none ∨ s.rp = true ∨ s.fset = true ∨ s.fclr = true) →
    exec i { s with inp := x } = mapNext (fun t => { t with inp := x }) (exec i s)

/-! ### Outputs -/

/-- 10_state.md R40: every field of every output port. -/
def Obligations.OutputPortsShowTheState : Prop :=
  ∀ s : State,
    (∀ k, k < 8 → (visOut s).getLsbD k = s.reg.getLsbD k) ∧
    trigOut s = pulseIt s.cfg (visOut s) ∧ (modeOut s).toNat = (match s.mode with
      | .performance => 0 | .changeLength => 1 | .patternSave => 2 | .patternLoad => 3) ∧
    slotOut s = s.slot ∧ (modeIndOut s).toNat = (match s.mode with
      | .performance => 0 | .changeLength => 1 | .patternSave => 2 | .patternLoad => 3) ∧
    didxOut s = s.didx ∧
    ((statusOut s).getLsbD 0 = s.rp ∧ (statusOut s).getLsbD 1 = s.nlp ∧
      (statusOut s).getLsbD 2 = s.wr ∧ (statusOut s).getLsbD 3 = s.npl ∧
      (statusOut s).getLsbD 4 = s.fset ∧ (statusOut s).getLsbD 5 = s.fclr ∧
      (statusOut s).getLsbD 6 = s.cmdErr ∧ (statusOut s).getLsbD 7 = false ∧
      (statusOut s).extractLsb' 8 2 = modeOut s ∧ (statusOut s).extractLsb' 10 2 = 0 ∧
      (statusOut s).extractLsb' 12 4 = s.slot) ∧
    ((xportOut s).extractLsb' 0 16 = s.reg ∧
      ((xportOut s).extractLsb' 16 4).toNat = s.lidx.val ∧
      (xportOut s).extractLsb' 20 5 = s.ofs ∧ (xportOut s).extractLsb' 25 3 = s.didx ∧
      (xportOut s).extractLsb' 28 4 = s.bank) ∧
    ((xport2Out s).extractLsb' 0 4 = s.next ∧ (xport2Out s).extractLsb' 4 8 = s.mcCmd ∧
      ((xport2Out s).extractLsb' 12 4).toNat = len s.lidx - 1)

/-- 10_state.md R40, 60_exceptions.md R250: the observation ports show every register: two states with
equal ports differ at most in the pattern store and the model's own fields. -/
def Obligations.ObservationPortsDetermineEveryRegister : Prop :=
  ∀ s t : State, statusOut s = statusOut t → xportOut s = xportOut t → xport2Out s = xport2Out t →
    t = { s with store := t.store, cfg := t.cfg, inp := t.inp, script := t.script }

/-- 43_outputs_aux.md R190, R191: the four trigger bits the source gives, the form of the four open
ones, and that the trigger byte depends on the visible byte alone. -/
def Obligations.TriggerByteIsAFunctionOfTheVisibleByte : Prop :=
  (∀ (c : Params) (x : Byte),
    (pulseIt c x).getLsbD 0 = x.getLsbD 0 ∧ (pulseIt c x).getLsbD 1 = !x.getLsbD 0 ∧
    (pulseIt c x).getLsbD 2 = (x.getLsbD 0 && x.getLsbD 3) ∧
    (pulseIt c x).getLsbD 4 = Bool.xor (x.getLsbD 1) (x.getLsbD 6) ∧
    (∀ q ∈ [(3, c.pulseFn3), (5, c.pulseFn5), (6, c.pulseFn6), (7, c.pulseFn7)],
      (pulseIt c x).getLsbD q.1 = match q.2.op with
        | .and => x.getLsbD q.2.a.val && x.getLsbD q.2.b.val
        | .xor => Bool.xor (x.getLsbD q.2.a.val) (x.getLsbD q.2.b.val))) ∧
  (∀ (i : Instr) (s t : State), exec i s = .next t → visOut t = visOut s → trigOut t = trigOut s)

/-- 20_memory.md R63: a host that carries the command word as two bytes, in either order, sends the
block the word it split. (Outside the block; which byte either order puts first is read from the
terms: log 15.) -/
def Obligations.CommandWordOfItsBytes : Prop :=
  ∀ (o : ByteOrder) (w : Word), commandWord o (commandBytes o w).1 (commandBytes o w).2 = w
end

