-- ==== Sys2Proof/Laws/State.lean ====
section
/-! SUPPORT. What each named update does to each field, true by definition: the provers' simp set, so
that no proof unfolds a record update. -/

namespace Sys2Proof.Machine

/-! ### `accept` -/

section
variable (s : State) (x : Inputs) (rest : List Presentation)

@[simp] theorem accept_reg : (s.accept x rest).reg = s.reg := rfl
@[simp] theorem accept_lidx : (s.accept x rest).lidx = s.lidx := rfl
@[simp] theorem accept_ofs : (s.accept x rest).ofs = s.ofs := rfl
@[simp] theorem accept_bank : (s.accept x rest).bank = s.bank := rfl
@[simp] theorem accept_next : (s.accept x rest).next = s.next := rfl
@[simp] theorem accept_rp : (s.accept x rest).rp = s.rp := rfl
@[simp] theorem accept_nlp : (s.accept x rest).nlp = s.nlp := rfl
@[simp] theorem accept_wr : (s.accept x rest).wr = s.wr := rfl
@[simp] theorem accept_npl : (s.accept x rest).npl = s.npl := rfl
@[simp] theorem accept_fset : (s.accept x rest).fset = s.fset := rfl
@[simp] theorem accept_fclr : (s.accept x rest).fclr = s.fclr := rfl
@[simp] theorem accept_didx : (s.accept x rest).didx = s.didx := rfl
@[simp] theorem accept_mode : (s.accept x rest).mode = s.mode := rfl
@[simp] theorem accept_slot : (s.accept x rest).slot = s.slot := rfl
@[simp] theorem accept_mcCmd : (s.accept x rest).mcCmd = s.mcCmd := rfl
@[simp] theorem accept_cmdErr : (s.accept x rest).cmdErr = s.cmdErr := rfl
@[simp] theorem accept_store : (s.accept x rest).store = s.store := rfl
@[simp] theorem accept_cfg : (s.accept x rest).cfg = s.cfg := rfl
@[simp] theorem accept_inp : (s.accept x rest).inp = x := rfl
@[simp] theorem accept_script : (s.accept x rest).script = rest := rfl

end

/-! ### `markReserved` -/

section
variable (s : State)

@[simp] theorem markReserved_reg : (s.markReserved).reg = s.reg := rfl
@[simp] theorem markReserved_lidx : (s.markReserved).lidx = s.lidx := rfl
@[simp] theorem markReserved_ofs : (s.markReserved).ofs = s.ofs := rfl
@[simp] theorem markReserved_bank : (s.markReserved).bank = s.bank := rfl
@[simp] theorem markReserved_next : (s.markReserved).next = s.next := rfl
@[simp] theorem markReserved_rp : (s.markReserved).rp = s.rp := rfl
@[simp] theorem markReserved_nlp : (s.markReserved).nlp = s.nlp := rfl
@[simp] theorem markReserved_wr : (s.markReserved).wr = s.wr := rfl
@[simp] theorem markReserved_npl : (s.markReserved).npl = s.npl := rfl
@[simp] theorem markReserved_fset : (s.markReserved).fset = s.fset := rfl
@[simp] theorem markReserved_fclr : (s.markReserved).fclr = s.fclr := rfl
@[simp] theorem markReserved_didx : (s.markReserved).didx = s.didx := rfl
@[simp] theorem markReserved_mode : (s.markReserved).mode = s.mode := rfl
@[simp] theorem markReserved_slot : (s.markReserved).slot = s.slot := rfl
@[simp] theorem markReserved_mcCmd : (s.markReserved).mcCmd = s.mcCmd := rfl
@[simp] theorem markReserved_cmdErr : (s.markReserved).cmdErr = true := rfl
@[simp] theorem markReserved_store : (s.markReserved).store = s.store := rfl
@[simp] theorem markReserved_cfg : (s.markReserved).cfg = s.cfg := rfl
@[simp] theorem markReserved_inp : (s.markReserved).inp = s.inp := rfl
@[simp] theorem markReserved_script : (s.markReserved).script = s.script := rfl

end

/-! ### `beginTransport` -/

section
variable (s : State)

@[simp] theorem beginTransport_reg : (s.beginTransport).reg = s.reg := rfl
@[simp] theorem beginTransport_lidx : (s.beginTransport).lidx = s.lidx := rfl
@[simp] theorem beginTransport_ofs : (s.beginTransport).ofs = s.ofs := rfl
@[simp] theorem beginTransport_bank : (s.beginTransport).bank = s.bank := rfl
@[simp] theorem beginTransport_next : (s.beginTransport).next = s.next := rfl
@[simp] theorem beginTransport_rp : (s.beginTransport).rp = s.rp := rfl
@[simp] theorem beginTransport_nlp : (s.beginTransport).nlp = s.nlp := rfl
@[simp] theorem beginTransport_wr : (s.beginTransport).wr = false := rfl
@[simp] theorem beginTransport_npl : (s.beginTransport).npl = false := rfl
@[simp] theorem beginTransport_fset : (s.beginTransport).fset = s.fset := rfl
@[simp] theorem beginTransport_fclr : (s.beginTransport).fclr = s.fclr := rfl
@[simp] theorem beginTransport_didx : (s.beginTransport).didx = s.didx := rfl
@[simp] theorem beginTransport_mode : (s.beginTransport).mode = s.mode := rfl
@[simp] theorem beginTransport_slot : (s.beginTransport).slot = s.slot := rfl
@[simp] theorem beginTransport_mcCmd : (s.beginTransport).mcCmd = s.mcCmd := rfl
@[simp] theorem beginTransport_cmdErr : (s.beginTransport).cmdErr = s.cmdErr := rfl
@[simp] theorem beginTransport_store : (s.beginTransport).store = s.store := rfl
@[simp] theorem beginTransport_cfg : (s.beginTransport).cfg = s.cfg := rfl
@[simp] theorem beginTransport_inp : (s.beginTransport).inp = s.inp := rfl
@[simp] theorem beginTransport_script : (s.beginTransport).script = s.script := rfl

end

/-! ### `takeReset` -/

section
variable (s : State)

@[simp] theorem takeReset_reg : (s.takeReset).reg = s.reg := rfl
@[simp] theorem takeReset_lidx : (s.takeReset).lidx = s.lidx := rfl
@[simp] theorem takeReset_ofs : (s.takeReset).ofs = 0 := rfl
@[simp] theorem takeReset_bank : (s.takeReset).bank = s.bank := rfl
@[simp] theorem takeReset_next : (s.takeReset).next = s.next := rfl
@[simp] theorem takeReset_rp : (s.takeReset).rp = false := rfl
@[simp] theorem takeReset_nlp : (s.takeReset).nlp = s.nlp := rfl
@[simp] theorem takeReset_wr : (s.takeReset).wr = true := rfl
@[simp] theorem takeReset_npl : (s.takeReset).npl = s.npl := rfl
@[simp] theorem takeReset_fset : (s.takeReset).fset = s.fset := rfl
@[simp] theorem takeReset_fclr : (s.takeReset).fclr = s.fclr := rfl
@[simp] theorem takeReset_didx : (s.takeReset).didx = s.didx := rfl
@[simp] theorem takeReset_mode : (s.takeReset).mode = s.mode := rfl
@[simp] theorem takeReset_slot : (s.takeReset).slot = s.slot := rfl
@[simp] theorem takeReset_mcCmd : (s.takeReset).mcCmd = s.mcCmd := rfl
@[simp] theorem takeReset_cmdErr : (s.takeReset).cmdErr = s.cmdErr := rfl
@[simp] theorem takeReset_store : (s.takeReset).store = s.store := rfl
@[simp] theorem takeReset_cfg : (s.takeReset).cfg = s.cfg := rfl
@[simp] theorem takeReset_inp : (s.takeReset).inp = s.inp := rfl
@[simp] theorem takeReset_script : (s.takeReset).script = s.script := rfl

end

/-! ### `setReg` -/

section
variable (s : State) (v : Word)

@[simp] theorem setReg_reg : (s.setReg v).reg = v := rfl
@[simp] theorem setReg_lidx : (s.setReg v).lidx = s.lidx := rfl
@[simp] theorem setReg_ofs : (s.setReg v).ofs = s.ofs := rfl
@[simp] theorem setReg_bank : (s.setReg v).bank = s.bank := rfl
@[simp] theorem setReg_next : (s.setReg v).next = s.next := rfl
@[simp] theorem setReg_rp : (s.setReg v).rp = s.rp := rfl
@[simp] theorem setReg_nlp : (s.setReg v).nlp = s.nlp := rfl
@[simp] theorem setReg_wr : (s.setReg v).wr = s.wr := rfl
@[simp] theorem setReg_npl : (s.setReg v).npl = s.npl := rfl
@[simp] theorem setReg_fset : (s.setReg v).fset = s.fset := rfl
@[simp] theorem setReg_fclr : (s.setReg v).fclr = s.fclr := rfl
@[simp] theorem setReg_didx : (s.setReg v).didx = s.didx := rfl
@[simp] theorem setReg_mode : (s.setReg v).mode = s.mode := rfl
@[simp] theorem setReg_slot : (s.setReg v).slot = s.slot := rfl
@[simp] theorem setReg_mcCmd : (s.setReg v).mcCmd = s.mcCmd := rfl
@[simp] theorem setReg_cmdErr : (s.setReg v).cmdErr = s.cmdErr := rfl
@[simp] theorem setReg_store : (s.setReg v).store = s.store := rfl
@[simp] theorem setReg_cfg : (s.setReg v).cfg = s.cfg := rfl
@[simp] theorem setReg_inp : (s.setReg v).inp = s.inp := rfl
@[simp] theorem setReg_script : (s.setReg v).script = s.script := rfl

end

/-! ### `setOfs` -/

section
variable (s : State) (o : BitVec 5)

@[simp] theorem setOfs_reg : (s.setOfs o).reg = s.reg := rfl
@[simp] theorem setOfs_lidx : (s.setOfs o).lidx = s.lidx := rfl
@[simp] theorem setOfs_ofs : (s.setOfs o).ofs = o := rfl
@[simp] theorem setOfs_bank : (s.setOfs o).bank = s.bank := rfl
@[simp] theorem setOfs_next : (s.setOfs o).next = s.next := rfl
@[simp] theorem setOfs_rp : (s.setOfs o).rp = s.rp := rfl
@[simp] theorem setOfs_nlp : (s.setOfs o).nlp = s.nlp := rfl
@[simp] theorem setOfs_wr : (s.setOfs o).wr = s.wr := rfl
@[simp] theorem setOfs_npl : (s.setOfs o).npl = s.npl := rfl
@[simp] theorem setOfs_fset : (s.setOfs o).fset = s.fset := rfl
@[simp] theorem setOfs_fclr : (s.setOfs o).fclr = s.fclr := rfl
@[simp] theorem setOfs_didx : (s.setOfs o).didx = s.didx := rfl
@[simp] theorem setOfs_mode : (s.setOfs o).mode = s.mode := rfl
@[simp] theorem setOfs_slot : (s.setOfs o).slot = s.slot := rfl
@[simp] theorem setOfs_mcCmd : (s.setOfs o).mcCmd = s.mcCmd := rfl
@[simp] theorem setOfs_cmdErr : (s.setOfs o).cmdErr = s.cmdErr := rfl
@[simp] theorem setOfs_store : (s.setOfs o).store = s.store := rfl
@[simp] theorem setOfs_cfg : (s.setOfs o).cfg = s.cfg := rfl
@[simp] theorem setOfs_inp : (s.setOfs o).inp = s.inp := rfl
@[simp] theorem setOfs_script : (s.setOfs o).script = s.script := rfl

end

/-! ### `setLength` -/

section
variable (s : State) (l : LenIdx) (o : BitVec 5)

@[simp] theorem setLength_reg : (s.setLength l o).reg = s.reg := rfl
@[simp] theorem setLength_lidx : (s.setLength l o).lidx = l := rfl
@[simp] theorem setLength_ofs : (s.setLength l o).ofs = o := rfl
@[simp] theorem setLength_bank : (s.setLength l o).bank = s.bank := rfl
@[simp] theorem setLength_next : (s.setLength l o).next = s.next := rfl
@[simp] theorem setLength_rp : (s.setLength l o).rp = s.rp := rfl
@[simp] theorem setLength_nlp : (s.setLength l o).nlp = s.nlp := rfl
@[simp] theorem setLength_wr : (s.setLength l o).wr = s.wr := rfl
@[simp] theorem setLength_npl : (s.setLength l o).npl = s.npl := rfl
@[simp] theorem setLength_fset : (s.setLength l o).fset = s.fset := rfl
@[simp] theorem setLength_fclr : (s.setLength l o).fclr = s.fclr := rfl
@[simp] theorem setLength_didx : (s.setLength l o).didx = s.didx := rfl
@[simp] theorem setLength_mode : (s.setLength l o).mode = s.mode := rfl
@[simp] theorem setLength_slot : (s.setLength l o).slot = s.slot := rfl
@[simp] theorem setLength_mcCmd : (s.setLength l o).mcCmd = s.mcCmd := rfl
@[simp] theorem setLength_cmdErr : (s.setLength l o).cmdErr = s.cmdErr := rfl
@[simp] theorem setLength_store : (s.setLength l o).store = s.store := rfl
@[simp] theorem setLength_cfg : (s.setLength l o).cfg = s.cfg := rfl
@[simp] theorem setLength_inp : (s.setLength l o).inp = s.inp := rfl
@[simp] theorem setLength_script : (s.setLength l o).script = s.script := rfl

end

/-! ### `pendReset` -/

section
variable (s : State)

@[simp] theorem pendReset_reg : (s.pendReset).reg = s.reg := rfl
@[simp] theorem pendReset_lidx : (s.pendReset).lidx = s.lidx := rfl
@[simp] theorem pendReset_ofs : (s.pendReset).ofs = s.ofs := rfl
@[simp] theorem pendReset_bank : (s.pendReset).bank = s.bank := rfl
@[simp] theorem pendReset_next : (s.pendReset).next = s.next := rfl
@[simp] theorem pendReset_rp : (s.pendReset).rp = true := rfl
@[simp] theorem pendReset_nlp : (s.pendReset).nlp = s.nlp := rfl
@[simp] theorem pendReset_wr : (s.pendReset).wr = s.wr := rfl
@[simp] theorem pendReset_npl : (s.pendReset).npl = s.npl := rfl
@[simp] theorem pendReset_fset : (s.pendReset).fset = s.fset := rfl
@[simp] theorem pendReset_fclr : (s.pendReset).fclr = s.fclr := rfl
@[simp] theorem pendReset_didx : (s.pendReset).didx = s.didx := rfl
@[simp] theorem pendReset_mode : (s.pendReset).mode = s.mode := rfl
@[simp] theorem pendReset_slot : (s.pendReset).slot = s.slot := rfl
@[simp] theorem pendReset_mcCmd : (s.pendReset).mcCmd = s.mcCmd := rfl
@[simp] theorem pendReset_cmdErr : (s.pendReset).cmdErr = s.cmdErr := rfl
@[simp] theorem pendReset_store : (s.pendReset).store = s.store := rfl
@[simp] theorem pendReset_cfg : (s.pendReset).cfg = s.cfg := rfl
@[simp] theorem pendReset_inp : (s.pendReset).inp = s.inp := rfl
@[simp] theorem pendReset_script : (s.pendReset).script = s.script := rfl

end

/-! ### `zeroTransport` -/

section
variable (s : State)

@[simp] theorem zeroTransport_reg : (s.zeroTransport).reg = s.reg := rfl
@[simp] theorem zeroTransport_lidx : (s.zeroTransport).lidx = s.lidx := rfl
@[simp] theorem zeroTransport_ofs : (s.zeroTransport).ofs = 0 := rfl
@[simp] theorem zeroTransport_bank : (s.zeroTransport).bank = s.bank := rfl
@[simp] theorem zeroTransport_next : (s.zeroTransport).next = s.next := rfl
@[simp] theorem zeroTransport_rp : (s.zeroTransport).rp = s.rp := rfl
@[simp] theorem zeroTransport_nlp : (s.zeroTransport).nlp = s.nlp := rfl
@[simp] theorem zeroTransport_wr : (s.zeroTransport).wr = true := rfl
@[simp] theorem zeroTransport_npl : (s.zeroTransport).npl = s.npl := rfl
@[simp] theorem zeroTransport_fset : (s.zeroTransport).fset = s.fset := rfl
@[simp] theorem zeroTransport_fclr : (s.zeroTransport).fclr = s.fclr := rfl
@[simp] theorem zeroTransport_didx : (s.zeroTransport).didx = s.didx := rfl
@[simp] theorem zeroTransport_mode : (s.zeroTransport).mode = s.mode := rfl
@[simp] theorem zeroTransport_slot : (s.zeroTransport).slot = s.slot := rfl
@[simp] theorem zeroTransport_mcCmd : (s.zeroTransport).mcCmd = s.mcCmd := rfl
@[simp] theorem zeroTransport_cmdErr : (s.zeroTransport).cmdErr = s.cmdErr := rfl
@[simp] theorem zeroTransport_store : (s.zeroTransport).store = s.store := rfl
@[simp] theorem zeroTransport_cfg : (s.zeroTransport).cfg = s.cfg := rfl
@[simp] theorem zeroTransport_inp : (s.zeroTransport).inp = s.inp := rfl
@[simp] theorem zeroTransport_script : (s.zeroTransport).script = s.script := rfl

end

/-! ### `loadEntry` -/

section
variable (s : State) (e : Entry) (o : BitVec 5)

@[simp] theorem loadEntry_reg : (s.loadEntry e o).reg = e.pattern := rfl
@[simp] theorem loadEntry_lidx : (s.loadEntry e o).lidx = e.lidx := rfl
@[simp] theorem loadEntry_ofs : (s.loadEntry e o).ofs = o := rfl
@[simp] theorem loadEntry_bank : (s.loadEntry e o).bank = s.next := rfl
@[simp] theorem loadEntry_next : (s.loadEntry e o).next = s.next := rfl
@[simp] theorem loadEntry_rp : (s.loadEntry e o).rp = s.rp := rfl
@[simp] theorem loadEntry_nlp : (s.loadEntry e o).nlp = false := rfl
@[simp] theorem loadEntry_wr : (s.loadEntry e o).wr = s.wr := rfl
@[simp] theorem loadEntry_npl : (s.loadEntry e o).npl = true := rfl
@[simp] theorem loadEntry_fset : (s.loadEntry e o).fset = s.fset := rfl
@[simp] theorem loadEntry_fclr : (s.loadEntry e o).fclr = s.fclr := rfl
@[simp] theorem loadEntry_didx : (s.loadEntry e o).didx = s.didx := rfl
@[simp] theorem loadEntry_mode : (s.loadEntry e o).mode = s.mode := rfl
@[simp] theorem loadEntry_slot : (s.loadEntry e o).slot = s.slot := rfl
@[simp] theorem loadEntry_mcCmd : (s.loadEntry e o).mcCmd = s.mcCmd := rfl
@[simp] theorem loadEntry_cmdErr : (s.loadEntry e o).cmdErr = s.cmdErr := rfl
@[simp] theorem loadEntry_store : (s.loadEntry e o).store = s.store := rfl
@[simp] theorem loadEntry_cfg : (s.loadEntry e o).cfg = s.cfg := rfl
@[simp] theorem loadEntry_inp : (s.loadEntry e o).inp = s.inp := rfl
@[simp] theorem loadEntry_script : (s.loadEntry e o).script = s.script := rfl

end

/-! ### `stageBank` -/

section
variable (s : State) (k : BitVec 4)

@[simp] theorem stageBank_reg : (s.stageBank k).reg = s.reg := rfl
@[simp] theorem stageBank_lidx : (s.stageBank k).lidx = s.lidx := rfl
@[simp] theorem stageBank_ofs : (s.stageBank k).ofs = s.ofs := rfl
@[simp] theorem stageBank_bank : (s.stageBank k).bank = s.bank := rfl
@[simp] theorem stageBank_next : (s.stageBank k).next = k := rfl
@[simp] theorem stageBank_rp : (s.stageBank k).rp = s.rp := rfl
@[simp] theorem stageBank_nlp : (s.stageBank k).nlp = true := rfl
@[simp] theorem stageBank_wr : (s.stageBank k).wr = s.wr := rfl
@[simp] theorem stageBank_npl : (s.stageBank k).npl = s.npl := rfl
@[simp] theorem stageBank_fset : (s.stageBank k).fset = s.fset := rfl
@[simp] theorem stageBank_fclr : (s.stageBank k).fclr = s.fclr := rfl
@[simp] theorem stageBank_didx : (s.stageBank k).didx = s.didx := rfl
@[simp] theorem stageBank_mode : (s.stageBank k).mode = s.mode := rfl
@[simp] theorem stageBank_slot : (s.stageBank k).slot = s.slot := rfl
@[simp] theorem stageBank_mcCmd : (s.stageBank k).mcCmd = s.mcCmd := rfl
@[simp] theorem stageBank_cmdErr : (s.stageBank k).cmdErr = s.cmdErr := rfl
@[simp] theorem stageBank_store : (s.stageBank k).store = s.store := rfl
@[simp] theorem stageBank_cfg : (s.stageBank k).cfg = s.cfg := rfl
@[simp] theorem stageBank_inp : (s.stageBank k).inp = s.inp := rfl
@[simp] theorem stageBank_script : (s.stageBank k).script = s.script := rfl

end

/-! ### `setStore` -/

section
variable (s : State) (m : Memory)

@[simp] theorem setStore_reg : (s.setStore m).reg = s.reg := rfl
@[simp] theorem setStore_lidx : (s.setStore m).lidx = s.lidx := rfl
@[simp] theorem setStore_ofs : (s.setStore m).ofs = s.ofs := rfl
@[simp] theorem setStore_bank : (s.setStore m).bank = s.bank := rfl
@[simp] theorem setStore_next : (s.setStore m).next = s.next := rfl
@[simp] theorem setStore_rp : (s.setStore m).rp = s.rp := rfl
@[simp] theorem setStore_nlp : (s.setStore m).nlp = s.nlp := rfl
@[simp] theorem setStore_wr : (s.setStore m).wr = s.wr := rfl
@[simp] theorem setStore_npl : (s.setStore m).npl = s.npl := rfl
@[simp] theorem setStore_fset : (s.setStore m).fset = s.fset := rfl
@[simp] theorem setStore_fclr : (s.setStore m).fclr = s.fclr := rfl
@[simp] theorem setStore_didx : (s.setStore m).didx = s.didx := rfl
@[simp] theorem setStore_mode : (s.setStore m).mode = s.mode := rfl
@[simp] theorem setStore_slot : (s.setStore m).slot = s.slot := rfl
@[simp] theorem setStore_mcCmd : (s.setStore m).mcCmd = s.mcCmd := rfl
@[simp] theorem setStore_cmdErr : (s.setStore m).cmdErr = s.cmdErr := rfl
@[simp] theorem setStore_store : (s.setStore m).store = m := rfl
@[simp] theorem setStore_cfg : (s.setStore m).cfg = s.cfg := rfl
@[simp] theorem setStore_inp : (s.setStore m).inp = s.inp := rfl
@[simp] theorem setStore_script : (s.setStore m).script = s.script := rfl

end

/-! ### `setFset` -/

section
variable (s : State) (b : Bool)

@[simp] theorem setFset_reg : (s.setFset b).reg = s.reg := rfl
@[simp] theorem setFset_lidx : (s.setFset b).lidx = s.lidx := rfl
@[simp] theorem setFset_ofs : (s.setFset b).ofs = s.ofs := rfl
@[simp] theorem setFset_bank : (s.setFset b).bank = s.bank := rfl
@[simp] theorem setFset_next : (s.setFset b).next = s.next := rfl
@[simp] theorem setFset_rp : (s.setFset b).rp = s.rp := rfl
@[simp] theorem setFset_nlp : (s.setFset b).nlp = s.nlp := rfl
@[simp] theorem setFset_wr : (s.setFset b).wr = s.wr := rfl
@[simp] theorem setFset_npl : (s.setFset b).npl = s.npl := rfl
@[simp] theorem setFset_fset : (s.setFset b).fset = b := rfl
@[simp] theorem setFset_fclr : (s.setFset b).fclr = s.fclr := rfl
@[simp] theorem setFset_didx : (s.setFset b).didx = s.didx := rfl
@[simp] theorem setFset_mode : (s.setFset b).mode = s.mode := rfl
@[simp] theorem setFset_slot : (s.setFset b).slot = s.slot := rfl
@[simp] theorem setFset_mcCmd : (s.setFset b).mcCmd = s.mcCmd := rfl
@[simp] theorem setFset_cmdErr : (s.setFset b).cmdErr = s.cmdErr := rfl
@[simp] theorem setFset_store : (s.setFset b).store = s.store := rfl
@[simp] theorem setFset_cfg : (s.setFset b).cfg = s.cfg := rfl
@[simp] theorem setFset_inp : (s.setFset b).inp = s.inp := rfl
@[simp] theorem setFset_script : (s.setFset b).script = s.script := rfl

end

/-! ### `setFclr` -/

section
variable (s : State) (b : Bool)

@[simp] theorem setFclr_reg : (s.setFclr b).reg = s.reg := rfl
@[simp] theorem setFclr_lidx : (s.setFclr b).lidx = s.lidx := rfl
@[simp] theorem setFclr_ofs : (s.setFclr b).ofs = s.ofs := rfl
@[simp] theorem setFclr_bank : (s.setFclr b).bank = s.bank := rfl
@[simp] theorem setFclr_next : (s.setFclr b).next = s.next := rfl
@[simp] theorem setFclr_rp : (s.setFclr b).rp = s.rp := rfl
@[simp] theorem setFclr_nlp : (s.setFclr b).nlp = s.nlp := rfl
@[simp] theorem setFclr_wr : (s.setFclr b).wr = s.wr := rfl
@[simp] theorem setFclr_npl : (s.setFclr b).npl = s.npl := rfl
@[simp] theorem setFclr_fset : (s.setFclr b).fset = s.fset := rfl
@[simp] theorem setFclr_fclr : (s.setFclr b).fclr = b := rfl
@[simp] theorem setFclr_didx : (s.setFclr b).didx = s.didx := rfl
@[simp] theorem setFclr_mode : (s.setFclr b).mode = s.mode := rfl
@[simp] theorem setFclr_slot : (s.setFclr b).slot = s.slot := rfl
@[simp] theorem setFclr_mcCmd : (s.setFclr b).mcCmd = s.mcCmd := rfl
@[simp] theorem setFclr_cmdErr : (s.setFclr b).cmdErr = s.cmdErr := rfl
@[simp] theorem setFclr_store : (s.setFclr b).store = s.store := rfl
@[simp] theorem setFclr_cfg : (s.setFclr b).cfg = s.cfg := rfl
@[simp] theorem setFclr_inp : (s.setFclr b).inp = s.inp := rfl
@[simp] theorem setFclr_script : (s.setFclr b).script = s.script := rfl

end

/-! ### `setDidx` -/

section
variable (s : State) (x : BitVec 3)

@[simp] theorem setDidx_reg : (s.setDidx x).reg = s.reg := rfl
@[simp] theorem setDidx_lidx : (s.setDidx x).lidx = s.lidx := rfl
@[simp] theorem setDidx_ofs : (s.setDidx x).ofs = s.ofs := rfl
@[simp] theorem setDidx_bank : (s.setDidx x).bank = s.bank := rfl
@[simp] theorem setDidx_next : (s.setDidx x).next = s.next := rfl
@[simp] theorem setDidx_rp : (s.setDidx x).rp = s.rp := rfl
@[simp] theorem setDidx_nlp : (s.setDidx x).nlp = s.nlp := rfl
@[simp] theorem setDidx_wr : (s.setDidx x).wr = s.wr := rfl
@[simp] theorem setDidx_npl : (s.setDidx x).npl = s.npl := rfl
@[simp] theorem setDidx_fset : (s.setDidx x).fset = s.fset := rfl
@[simp] theorem setDidx_fclr : (s.setDidx x).fclr = s.fclr := rfl
@[simp] theorem setDidx_didx : (s.setDidx x).didx = x := rfl
@[simp] theorem setDidx_mode : (s.setDidx x).mode = s.mode := rfl
@[simp] theorem setDidx_slot : (s.setDidx x).slot = s.slot := rfl
@[simp] theorem setDidx_mcCmd : (s.setDidx x).mcCmd = s.mcCmd := rfl
@[simp] theorem setDidx_cmdErr : (s.setDidx x).cmdErr = s.cmdErr := rfl
@[simp] theorem setDidx_store : (s.setDidx x).store = s.store := rfl
@[simp] theorem setDidx_cfg : (s.setDidx x).cfg = s.cfg := rfl
@[simp] theorem setDidx_inp : (s.setDidx x).inp = s.inp := rfl
@[simp] theorem setDidx_script : (s.setDidx x).script = s.script := rfl

end

/-! ### `panel` -/

section
variable (s : State) (md : Mode) (sl : BitVec 4) (code : Byte)

@[simp] theorem panel_reg : (s.panel md sl code).reg = s.reg := rfl
@[simp] theorem panel_lidx : (s.panel md sl code).lidx = s.lidx := rfl
@[simp] theorem panel_ofs : (s.panel md sl code).ofs = s.ofs := rfl
@[simp] theorem panel_bank : (s.panel md sl code).bank = s.bank := rfl
@[simp] theorem panel_next : (s.panel md sl code).next = s.next := rfl
@[simp] theorem panel_rp : (s.panel md sl code).rp = s.rp := rfl
@[simp] theorem panel_nlp : (s.panel md sl code).nlp = s.nlp := rfl
@[simp] theorem panel_wr : (s.panel md sl code).wr = s.wr := rfl
@[simp] theorem panel_npl : (s.panel md sl code).npl = s.npl := rfl
@[simp] theorem panel_fset : (s.panel md sl code).fset = s.fset := rfl
@[simp] theorem panel_fclr : (s.panel md sl code).fclr = s.fclr := rfl
@[simp] theorem panel_didx : (s.panel md sl code).didx = s.didx := rfl
@[simp] theorem panel_mode : (s.panel md sl code).mode = md := rfl
@[simp] theorem panel_slot : (s.panel md sl code).slot = sl := rfl
@[simp] theorem panel_mcCmd : (s.panel md sl code).mcCmd = code := rfl
@[simp] theorem panel_cmdErr : (s.panel md sl code).cmdErr = s.cmdErr := rfl
@[simp] theorem panel_store : (s.panel md sl code).store = s.store := rfl
@[simp] theorem panel_cfg : (s.panel md sl code).cfg = s.cfg := rfl
@[simp] theorem panel_inp : (s.panel md sl code).inp = s.inp := rfl
@[simp] theorem panel_script : (s.panel md sl code).script = s.script := rfl

end

end Sys2Proof.Machine
end

