-- ==== Sys2Proof/Laws/Bits.lean ====
section
/-! SUPPORT. The bits of a word after each word operation, and the offset arithmetic. -/

namespace Sys2Proof.Machine

/-! ### Words -/

theorem ofBits_getLsbD (f : Nat → Bool) (n i : Nat) :
    (ofBits f n).getLsbD i = (decide (i < n) && f i) := by
  induction n with
  | zero => simp [ofBits]
  | succ n ih =>
    rw [ofBits, BitVec.getLsbD_cons, ih]
    split
    · subst_vars; simp
    · have : i < n + 1 ↔ i < n := by omega
      simp [this]

theorem wordOfBits_getLsbD (f : Nat → Bool) (i : Nat) :
    (wordOfBits f).getLsbD i = (decide (i < 16) && f i) := ofBits_getLsbD f 16 i

theorem normPattern_getLsbD (v : Word) (L j : Nat) :
    (normPattern v L).getLsbD j = (decide (j < 16) && v.getLsbD (j % L)) := wordOfBits_getLsbD _ _

theorem rotl16_getLsbD (v : Word) {k : Nat} (hk : k < 16) {i : Nat} (hi : i < 16) :
    (rotl16 v k).getLsbD i = v.getLsbD ((i + 16 - k) % 16) := by
  have hm : k % 16 = k := Nat.mod_eq_of_lt hk
  rw [rotl16, BitVec.getLsbD_rotateLeft, hm]
  by_cases h : i < k
  · have : (i + 16 - k) % 16 = 16 - k + i := by omega
    simp [h, this]
  · have : (i + 16 - k) % 16 = i - k := by omega
    simp [h, hi, this]

theorem rotr16_getLsbD (v : Word) {k : Nat} (hk : k < 16) {i : Nat} (hi : i < 16) :
    (rotr16 v k).getLsbD i = v.getLsbD ((i + k) % 16) := by
  have hm : k % 16 = k := Nat.mod_eq_of_lt hk
  rw [rotr16, BitVec.getLsbD_rotateRight, hm]
  by_cases h : i < 16 - k
  · have : (i + k) % 16 = k + i := by omega
    simp [h, this]
  · have : (i + k) % 16 = i - (16 - k) := by omega
    simp [h, hi, this]

theorem rotateForward_getLsbD (v : Word) (fb : Bool) {j : Nat} (hj : j < 16) :
    (rotateForward v fb).getLsbD j = if j = 0 then fb else v.getLsbD (j - 1) := by
  rw [rotateForward, BitVec.getLsbD_append]
  by_cases h : j = 0
  · simp [h]
  · have h1 : ¬ j < 1 := by omega
    have h2 : j - 1 < 15 := by omega
    simp [h, h1, h2]

theorem rotateBackward_getLsbD (v : Word) (fb : Bool) {j : Nat} (hj : j < 16) :
    (rotateBackward v fb).getLsbD j = if j = 7 then fb else v.getLsbD ((j + 1) % 16) := by
  have hr : ∀ i, i < 16 → (rotr16 v 1).getLsbD i = v.getLsbD ((i + 1) % 16) :=
    fun i hi => rotr16_getLsbD v (by omega) hi
  rw [rotateBackward, BitVec.getLsbD_append, BitVec.getLsbD_append]
  by_cases h : j = 7
  · simp [h]
  · by_cases h7 : j < 7
    · simp [h, h7, hr j hj]
    · have h1 : ¬ j - 7 < 1 := by omega
      have h2 : j - 7 - 1 < 8 := by omega
      have h3 : 8 + (j - 7 - 1) = j := by omega
      simp [h, h7, h1, h2, h3, hr j hj]

theorem rotateForward_getElem (v : Word) (fb : Bool) {j : Nat} (hj : j < 16) :
    (rotateForward v fb)[j] = if j = 0 then fb else v.getLsbD (j - 1) := by
  rw [← rotateForward_getLsbD v fb hj, BitVec.getLsbD_eq_getElem]

theorem rotateBackward_getElem (v : Word) (fb : Bool) {j : Nat} (hj : j < 16) :
    (rotateBackward v fb)[j] = if j = 7 then fb else v.getLsbD ((j + 1) % 16) := by
  rw [← rotateBackward_getLsbD v fb hj, BitVec.getLsbD_eq_getElem]

theorem rotateWindow_getLsbD (back : Bool) (L : Nat) (v : Word) (k : Int) {i : Nat} (hi : i < 16) :
    (rotateWindow back L v k).getLsbD i =
      if windowIndex back L i < L
      then v.getLsbD (windowPos back L (floorMod (windowIndex back L i + k) L))
      else v.getLsbD i := by
  rw [rotateWindow, wordOfBits_getLsbD]
  simp [hi]

theorem rotateWord_zero (v : Word) : rotateWord v 0 = v := by simp [rotateWord]

theorem rotateToZero_zero (z : ZeroRotation) (L : Nat) (v : Word) : rotateToZero z L v 0 = v := by
  cases z <;> simp [rotateToZero, rotateWord_zero]

theorem rotateWord_getLsbD (v : Word) {k : Int} (hk : k.natAbs < 16) {i : Nat} (hi : i < 16) :
    (rotateWord v k).getLsbD i = v.getLsbD (floorMod (i + k) 16) := by
  unfold rotateWord floorMod
  split
  · rw [rotr16_getLsbD v (by omega) hi]; congr 1; omega
  · split
    · rw [rotl16_getLsbD v (by omega) hi]; congr 1; omega
    · congr 1; omega

/-! ### Lengths and offsets -/

theorem len_bounds (l : LenIdx) : 2 ≤ len l ∧ len l ≤ 16 := by
  revert l; decide

theorem offsetOf_storeOffset {n : Int} (h : n.natAbs < 16) : offsetOf (storeOffset n) = n := by
  unfold offsetOf storeOffset
  rw [BitVec.toInt_ofInt]
  apply Int.bmod_eq_of_le <;> omega

theorem offsetOf_zero : offsetOf 0 = 0 := by decide

theorem offsetOf_eq_zero {o : BitVec 5} : offsetOf o = 0 ↔ o = 0 := by
  revert o; decide

theorem offsetOf_inj {o q : BitVec 5} (h : offsetOf o = offsetOf q) : o = q :=
  BitVec.eq_of_toInt_eq h

theorem storeOffset_offsetOf (o : BitVec 5) : storeOffset (offsetOf o) = o := BitVec.ofInt_toInt

theorem dirStep_cases (d : Dir) : dirStep d = 1 ∨ dirStep d = -1 := by cases d <;> simp [dirStep]

theorem natAbs_trem_lt (a : Int) {m : Nat} (hm : 0 < m) : (trem a m).natAbs < m := by
  unfold trem
  rw [Int.natAbs_tmod]
  exact Nat.mod_lt _ (by simpa using hm)

theorem trem_of_lt {a : Int} {m : Nat} (h : a.natAbs < m) : trem a m = a := by
  unfold trem
  obtain ⟨n, rfl | rfl⟩ := Int.eq_nat_or_neg a
  · have hn : n < m := by omega
    rw [← Int.ofNat_tmod, Nat.mod_eq_of_lt hn]
  · have hn : n < m := by omega
    rw [Int.neg_tmod, ← Int.ofNat_tmod, Nat.mod_eq_of_lt hn]

theorem renormOffset_spec (o : BitVec 5) (l : LenIdx) :
    offsetOf (renormOffset o (len l)) = trem (offsetOf o) (len l) := by
  have hl := len_bounds l
  have := natAbs_trem_lt (offsetOf o) (m := len l) (by omega)
  exact offsetOf_storeOffset (by omega)

theorem renormOffset_zero (l : LenIdx) : renormOffset 0 (len l) = 0 := by
  revert l; decide

end Sys2Proof.Machine
end

