-- ==== Sys2Proof/Laws/Memory.lean ====
section
/-! SUPPORT. The pattern store: a read after a write, and every operation keeps the canonical form. -/

namespace Sys2Proof.Machine

theorem storeWrite_cases {m m' : Memory} {b : Nat} {e : Entry} (h : storeWrite m b e = some m') :
    b < m.length ∧ m' = m.set b e := by
  unfold storeWrite at h
  split at h
  · exact ⟨‹_›, (Option.some.inj h).symm⟩
  · cases h

theorem storeWrite_of_lt {m : Memory} {b : Nat} (e : Entry) (h : b < m.length) :
    storeWrite m b e = some (m.set b e) := by
  simp [storeWrite, h]

theorem storeWrite_of_ge {m : Memory} {b : Nat} (e : Entry) (h : m.length ≤ b) :
    storeWrite m b e = none := by
  simp [storeWrite, Nat.not_lt.mpr h]

theorem storeRead_set_same {m : Memory} {b : Nat} (e : Entry) (h : b < m.length) :
    storeRead (m.set b e) b = some e := by
  simp [storeRead, h]

theorem storeRead_set_other (m : Memory) {a b : Nat} (e : Entry) (h : a ≠ b) :
    storeRead (m.set b e) a = storeRead m a := by
  simp [storeRead, List.getElem?_set_ne (Ne.symm h)]

theorem storeRead_set {m : Memory} {b : Nat} (e : Entry) (h : b < m.length) (a : Nat) :
    storeRead (m.set b e) a = if a = b then some e else storeRead m a := by
  by_cases ha : a = b
  · subst ha; simp [storeRead_set_same e h]
  · simp [ha, storeRead_set_other m e ha]

theorem storeRead_of_lt {m : Memory} {b : Nat} (h : b < m.length) : ∃ e, storeRead m b = some e :=
  ⟨m[b], by simp [storeRead, h]⟩

theorem storeRead_some {m : Memory} {b : Nat} {e : Entry} (h : storeRead m b = some e) :
    b < m.length := by
  unfold storeRead at h
  exact (List.getElem?_eq_some_iff.mp h).1

theorem storeWrite_keeps_wf {n : Nat} {m m' : Memory} {b : Nat} {e : Entry}
    (hw : Memory.wf n m) (h : storeWrite m b e = some m') : Memory.wf n m' := by
  obtain ⟨-, rfl⟩ := storeWrite_cases h
  simpa [Memory.wf] using hw

theorem powerOn_store_wf {c : Params} (h : c.Valid) : Memory.wf c.nBanks (State.powerOn c).store := by
  simp [Memory.wf, State.powerOn, h.2.2.2.2.2.1]

theorem reset_store_wf : Memory.wf State.reset.cfg.nBanks State.reset.store := rfl

end Sys2Proof.Machine
end

