-- ==== Sys2Proof/Laws/Ops.lean ====
section
/-! SUPPORT. For each shared operation, everything it can do, said once. -/

namespace Sys2Proof.Machine

/-! ### The Probability Source -/

theorem stochasticize_snd (s : State) (c : Bool) :
    (stochasticize s c).2 =
      { s with fset := false, fclr := if s.fset then s.fclr else false } := by
  unfold stochasticize
  obtain ⟨⟩ := s
  rename_i fset fclr _ _ _ _ _ _ _ _ _
  cases fset <;> cases fclr <;> rfl

theorem stochasticize_fst_congr {s t : State} (c : Bool) (h1 : t.fset = s.fset)
    (h2 : t.fclr = s.fclr) (h3 : t.cfg = s.cfg) (h4 : t.inp = s.inp) :
    (stochasticize t c).1 = (stochasticize s c).1 := by
  unfold stochasticize
  rw [h1, h2, h3, h4]
  split
  · rfl
  · split <;> rfl

theorem stochasticize_passThrough {s : State} (h1 : s.fset = false) (h2 : s.fclr = false)
    (h : PassThrough s.cfg s.inp) (c : Bool) : stochasticize s c = (c, s) := by
  obtain ⟨hp, hc⟩ := h
  have hb : band s.cfg s.inp.p = .high := by simp [band, hp]
  simp only [stochasticize, h1, h2, regenerate, hb, Bool.false_eq_true, ↓reduceIte]
  rcases hc with hc | hc
  · have : cvExceeds s.cfg s.inp.cv = false := by simp [cvExceeds, hc]
    simp [cvInvert, this]
  · simp [cvInvert, hc, cvRuleHigh]

/-! ### The offset -/

theorem adv_spec {o : BitVec 5} {l : LenIdx} (d : Dir) (h : (offsetOf o).natAbs < len l) :
    offsetOf (adv o (len l) d) =
      if (offsetOf o + dirStep d).natAbs = len l then 0 else offsetOf o + dirStep d := by
  have hl := len_bounds l
  have hd := dirStep_cases d
  unfold adv
  simp only
  split
  · exact offsetOf_zero
  · exact offsetOf_storeOffset (by omega)

theorem adv_bound {o : BitVec 5} {l : LenIdx} (d : Dir) (h : (offsetOf o).natAbs < len l) :
    (offsetOf (adv o (len l) d)).natAbs < len l := by
  have hl := len_bounds l
  have hd := dirStep_cases d
  rw [adv_spec d h]
  split <;> omega

theorem adv_eq_zero_iff {o : BitVec 5} {l : LenIdx} (d : Dir) (h : (offsetOf o).natAbs < len l) :
    adv o (len l) d = 0 ↔
      offsetOf o + dirStep d = 0 ∨ (offsetOf o + dirStep d).natAbs = len l := by
  rw [← offsetOf_eq_zero, adv_spec d h]
  split <;> simp_all

theorem renormOffset_bound (o : BitVec 5) (l : LenIdx) :
    (offsetOf (renormOffset o (len l))).natAbs < len l := by
  have hl := len_bounds l
  rw [renormOffset_spec]
  exact natAbs_trem_lt _ (by omega)

theorem tapIndex_bwd (l : LenIdx) : tapIndex .bwd (len l) = (24 - len l) % 16 := by
  revert l; decide

/-! ### Banks and slots -/

theorem floorMod_lt (a : Int) {m : Nat} (h : 0 < m) : floorMod a m < m := by
  unfold floorMod
  have h1 := Int.emod_lt_of_pos a (show (0 : Int) < (m : Int) by omega)
  omega

theorem reduceBank_toNat {c : Params} (h : c.Valid) (b : Nat) :
    (reduceBank c b).toNat = b % c.nBanks := by
  obtain ⟨⟨h4, h16⟩, -⟩ := h
  have hlt : b % c.nBanks < c.nBanks := Nat.mod_lt _ (by omega)
  have : floorMod (b : Int) c.nBanks = b % c.nBanks := by unfold floorMod; omega
  rw [reduceBank, this, BitVec.toNat_ofNat]
  exact Nat.mod_eq_of_lt (by omega)

theorem moveSlot_toNat {c : Params} (h : c.Valid) (k : BitVec 4) (n : Int) :
    (moveSlot c k n).toNat = floorMod ((k.toNat : Int) + n) c.nBanks := by
  obtain ⟨⟨h4, h16⟩, -⟩ := h
  have := floorMod_lt ((k.toNat : Int) + n) (m := c.nBanks) (by omega)
  rw [moveSlot, BitVec.toNat_ofNat]
  exact Nat.mod_eq_of_lt (by omega)

theorem reduceBank_of_lt {c : Params} (h : c.Valid) {k : BitVec 4} (hk : k.toNat < c.nBanks) :
    reduceBank c k.toNat = k := by
  apply BitVec.eq_of_toNat_eq
  rw [reduceBank_toNat h, Nat.mod_eq_of_lt hk]

/-! ### The engine operations -/

theorem downbeatLoad_cases {s t : State} (h : downbeatLoad s = .next t) :
    ∃ e, storeRead s.store s.next.toNat = some e ∧
      t = s.loadEntry e (renormOffset s.ofs (len e.lidx)) := by
  unfold downbeatLoad at h
  split at h
  · rename_i e he
    exact ⟨e, he, by cases h; rfl⟩
  · cases h

theorem transportStep_eq (d : Dir) (s : State) :
    transportStep d s =
      { s with
        reg := rotateStep d s.reg (stochasticize s (tapBit d (len s.lidx) s.reg)).1
        ofs := adv s.ofs (len s.lidx) d
        fset := false
        fclr := if s.fset then s.fclr else false } := by
  unfold transportStep
  simp only [stochasticize_snd]
  rfl

/-- What a transport ITER leaves before the load check, its per-step flags cleared. -/
theorem transportStep_beginTransport (d : Dir) (s : State) :
    transportStep d s.beginTransport =
      { s with
        reg := rotateStep d s.reg (stochasticize s (tapBit d (len s.lidx) s.reg)).1
        ofs := adv s.ofs (len s.lidx) d
        wr := false
        npl := false
        fset := false
        fclr := if s.fset then s.fclr else false } := by
  rw [transportStep_eq]
  rw [stochasticize_fst_congr (s := s) (t := s.beginTransport) _ rfl rfl rfl rfl]
  rfl

theorem transport_of_rp (d : Dir) {s : State} (h : s.rp = true) :
    transport d s = .next { s with rp := false, wr := true, npl := false, ofs := 0 } := by
  simp [transport, State.beginTransport, State.takeReset, h]

theorem transport_of_not_rp (d : Dir) {s : State} (h : s.rp = false) :
    transport d s =
      if s.nlp = true ∧ adv s.ofs (len s.lidx) d = 0
      then downbeatLoad (transportStep d s.beginTransport)
      else .next (transportStep d s.beginTransport) := by
  have hl : loadFires (transportStep d s.beginTransport) = true ↔
      (s.nlp = true ∧ adv s.ofs (len s.lidx) d = 0) := by
    simp [loadFires, transportStep_beginTransport]
  have hr : s.beginTransport.rp = false := h
  simp only [transport, hr, Bool.false_eq_true, ↓reduceIte]
  by_cases hf : s.nlp = true ∧ adv s.ofs (len s.lidx) d = 0
  · simp [hf, hl.mpr hf]
  · have : loadFires (transportStep d s.beginTransport) = false := by
      rw [Bool.eq_false_iff]; exact fun h => hf (hl.mp h)
    rw [if_neg hf, this]
    rfl

/-- Everything a transport ITER can do: take the pending reset, step, or step and load. -/
theorem transport_cases {d : Dir} {s t : State} (h : transport d s = .next t) :
    (s.rp = true ∧ t = { s with rp := false, wr := true, npl := false, ofs := 0 }) ∨
    (s.rp = false ∧ ¬ (s.nlp = true ∧ adv s.ofs (len s.lidx) d = 0) ∧
      t = transportStep d s.beginTransport) ∨
    (s.rp = false ∧ s.nlp = true ∧ adv s.ofs (len s.lidx) d = 0 ∧
      ∃ e, storeRead s.store s.next.toNat = some e ∧
        t = (transportStep d s.beginTransport).loadEntry e 0) := by
  cases hr : s.rp with
  | true =>
    rw [transport_of_rp d hr] at h
    exact .inl ⟨rfl, by cases h; rfl⟩
  | false =>
    rw [transport_of_not_rp d hr] at h
    right
    split at h
    · rename_i hf
      obtain ⟨e, he, rfl⟩ := downbeatLoad_cases h
      refine .inr ⟨rfl, hf.1, hf.2, e, ?_, ?_⟩
      · rw [transportStep_beginTransport] at he; exact he
      · have : (transportStep d s.beginTransport).ofs = 0 := by
          rw [transportStep_beginTransport]; exact hf.2
        rw [this, renormOffset_zero]
    · rename_i hf
      exact .inl ⟨rfl, hf, by cases h; rfl⟩

/-- A transport ITER completes in every lawful state. -/
theorem transport_completes (d : Dir) {s : State} (h : Lawful s) : ∃ t, transport d s = .next t := by
  cases hr : s.rp with
  | true => exact ⟨_, transport_of_rp d hr⟩
  | false =>
    rw [transport_of_not_rp d hr]
    split
    · have hb : (transportStep d s.beginTransport).next.toNat <
          (transportStep d s.beginTransport).store.length := by
        rw [transportStep_beginTransport]
        have h1 : s.store.length = s.cfg.nBanks := h.2.2.2.2.2.1
        have h2 := h.2.2.2.1
        simp only
        omega
      obtain ⟨e, he⟩ := storeRead_of_lt hb
      exact ⟨_, by unfold downbeatLoad; rw [he]⟩
    · exact ⟨_, rfl⟩

theorem iterate_cases {d : Dir} {p : Bool} {s t : State} (h : iterate d p s = .next t) :
    (p = true ∧ t = iterateInPlace d s) ∨ (p = false ∧ transport d s = .next t) := by
  cases p with
  | true => exact .inl ⟨rfl, by cases h; rfl⟩
  | false => exact .inr ⟨rfl, h⟩

theorem iterate_completes (d : Dir) (p : Bool) {s : State} (h : Lawful s) :
    ∃ t, iterate d p s = .next t := by
  cases p with
  | true => exact ⟨_, rfl⟩
  | false => exact transport_completes d h

theorem resetEdge_eq (s : State) :
    resetEdge s = match s.cfg.resetPolicy with
      | .deferred => { s with
          reg := rotateToZero s.cfg.zeroRotation (len s.lidx) s.reg (effOffset s), rp := true }
      | .immediate => { s with
          reg := rotateToZero s.cfg.zeroRotation (len s.lidx) s.reg (offsetOf s.ofs)
          ofs := 0, wr := true } := by
  unfold resetEdge
  cases s.cfg.resetPolicy <;> rfl

theorem nextLength_eq_none {d : Dir} {l : LenIdx} :
    nextLength d l = none ↔ (d = .fwd ∧ l.val = 12) ∨ (d = .bwd ∧ l.val = 0) := by
  have := l.isLt
  cases d
  · simp [nextLength]; omega
  · simp [nextLength]

theorem nextLength_eq_some {d : Dir} {l m : LenIdx} (h : nextLength d l = some m) :
    (m.val : Int) = l.val + dirStep d := by
  cases d
  · simp only [nextLength] at h
    split at h
    · cases h; simp [dirStep]
    · cases h
  · simp only [nextLength] at h
    split at h
    · cases h; simp only [dirStep]; omega
    · cases h

theorem changeLength_cases (d : Dir) (s : State) :
    (nextLength d s.lidx = none ∧ changeLength d s = s) ∨
    ∃ l, nextLength d s.lidx = some l ∧
      changeLength d s = { s with lidx := l, ofs := renormOffset s.ofs (len l) } := by
  unfold changeLength
  cases h : nextLength d s.lidx with
  | none => exact .inl ⟨rfl, rfl⟩
  | some l => exact .inr ⟨l, rfl, rfl⟩

theorem savePattern_cases {b : Nat} {s t : State} (h : savePattern b s = .next t) :
    (reduceBank s.cfg b).toNat < s.store.length ∧
      t = { s with store := s.store.set (reduceBank s.cfg b).toNat (savedEntry s) } := by
  unfold savePattern at h
  simp only at h
  split at h
  · rename_i m hm
    obtain ⟨hb, rfl⟩ := storeWrite_cases hm
    exact ⟨hb, by cases h; rfl⟩
  · cases h

theorem savePattern_completes (b : Nat) {s : State} (h : Lawful s) :
    savePattern b s =
      .next { s with store := s.store.set (b % s.cfg.nBanks) (savedEntry s) } := by
  have hv := h.1
  have hk := reduceBank_toNat hv b
  have h1 : s.store.length = s.cfg.nBanks := h.2.2.2.2.2.1
  have hlt : b % s.cfg.nBanks < s.store.length := by
    rw [h1]; exact Nat.mod_lt _ (by have := hv.1.1; omega)
  simp only [savePattern, hk, storeWrite_of_lt _ hlt]
  rfl

/-- Everything the dispatcher can do with an emitted command. -/
theorem dispatch_cases {e : Emitted} {s t : State} (h : dispatch e s = .next t) :
    (∃ d, e = .step d ∧ iterate d s.cfg.stepInPlace s = .next t) ∨
    (∃ d, e = .length d ∧ t = changeLength d s) ∨
    (∃ k, e = .load k ∧ t = setNextPattern k.toNat s) ∨
    (∃ k, e = .save k ∧ savePattern k.toNat s = .next t) ∨
    ((e = .changeMode ∨ e = .leds ∨ e = .noCmd) ∧ t = s) := by
  cases e <;> simp_all [dispatch]

theorem setNextPattern_eq (b : Nat) (s : State) :
    setNextPattern b s = { s with next := reduceBank s.cfg b, nlp := true } := rfl

/-- Everything a panel event can do, once its transition is known: the transition is recorded, then the
emitted command is dispatched. -/
theorem runPanel_cases {tr : Transition} {s t : State} (h : runPanel tr s = .next t) :
    dispatch tr.cmd { s with mode := tr.mode, slot := tr.slot, mcCmd := emittedCode tr.cmd } = .next t :=
  h

/-- The dispatcher completes in every lawful state, whatever command it is given. -/
theorem dispatch_completes (e : Emitted) {s : State} (h : Lawful s) : ∃ t, dispatch e s = .next t := by
  cases e with
  | step d => exact iterate_completes d _ h
  | save k => exact ⟨_, savePattern_completes k.toNat h⟩
  | length d => exact ⟨_, rfl⟩
  | load k => exact ⟨_, rfl⟩
  | noCmd => exact ⟨_, rfl⟩
  | changeMode => exact ⟨_, rfl⟩
  | leds => exact ⟨_, rfl⟩

/-! ### The outputs -/

theorem pulseIt_getLsbD (c : Params) (x : Byte) (k : Nat) :
    (pulseIt c x).getLsbD k = (decide (k < 8) && pulseBit c x k) := ofBits_getLsbD _ 8 k

/-! ### The step -/

/-- Everything a step can do: idle, mark a reserved word, or run the decoded command. -/
theorem step_cases {s t : State} (h : step s = .next t) :
    (s.script = [] ∧ t = s) ∨
    ∃ c rest, s.script = c :: rest ∧
      ((∃ r, decode c.cmd = .error r ∧ t = (s.accept c.inp rest).markReserved) ∨
        (∃ i, decode c.cmd = .ok i ∧ exec i (s.accept c.inp rest) = .next t)) := by
  unfold step fetch at h
  cases hs : s.script with
  | nil => rw [hs] at h; exact .inl ⟨rfl, by cases h; rfl⟩
  | cons c rest =>
    rw [hs] at h
    refine .inr ⟨c, rest, rfl, ?_⟩
    cases hd : decode c.cmd with
    | error r => simp only [hd] at h; exact .inl ⟨r, rfl, by cases h; rfl⟩
    | ok i => simp only [hd] at h; exact .inr ⟨i, rfl, h⟩

theorem step_nil {s : State} (h : s.script = []) : step s = .next s := by
  simp [step, fetch, h, idle]

theorem step_ok {s : State} {c : Presentation} {rest : List Presentation} {i : Instr}
    (h : s.script = c :: rest) (hd : decode c.cmd = .ok i) :
    step s = exec i (s.accept c.inp rest) := by
  simp [step, fetch, h, hd]

theorem step_error {s : State} {c : Presentation} {rest : List Presentation} {r : Reject}
    (h : s.script = c :: rest) (hd : decode c.cmd = .error r) :
    step s = .next (s.accept c.inp rest).markReserved := by
  simp [step, fetch, h, hd, reservedWord]

theorem runFor_succ {k : Nat} {s t : State} (h : step s = .next t) :
    runFor (k + 1) s = runFor k t := by
  simp [runFor, h]

/-- A run in two parts. -/
theorem runFor_add {a : Nat} (b : Nat) {s t : State} (h : runFor a s = .next t) :
    runFor (a + b) s = runFor b t := by
  induction a generalizing s with
  | zero => cases h; simp
  | succ a ih =>
    have e : a + 1 + b = (a + b) + 1 := by omega
    cases hs : step s with
    | next u =>
      rw [e, runFor_succ hs]
      rw [runFor_succ hs] at h
      exact ih h
    | fault r => simp [runFor, hs] at h
    | refused r => simp [runFor, hs] at h

/-- One step of a run of the host's interface. -/
theorem core_run_succ (M : Host.Core) (k : Nat) (s : M.State) :
    (∀ t, M.step s = .next t → M.run (k + 1) s = M.run k t) ∧
    (∀ r, M.step s = .fault r → M.run (k + 1) s = .fault r) ∧
    (∀ r, M.step s = .refused r → M.run (k + 1) s = .refused r) := by
  refine ⟨fun t h => ?_, fun r h => ?_, fun r h => ?_⟩ <;> rw [Host.Core.run.eq_2, h]

/-- A run of the model is a run of the host's interface. -/
theorem runFor_eq_run (k : Nat) (s : State) : Host.Core.run Sys2Proof.core k s = runFor k s := by
  induction k generalizing s with
  | zero => rfl
  | succ k ih =>
    obtain ⟨h1, h2, h3⟩ := core_run_succ Sys2Proof.core k s
    unfold runFor
    cases h : step s with
    | next t => exact (h1 t h).trans (ih t)
    | fault r => exact h2 r h
    | refused r => exact h3 r h

end Sys2Proof.Machine
end

