-- ==== Sys2Proof/Laws/PerInstr.lean ====
section
/-! SUPPORT. One lemma per command about its encoding: the word of a well-formed command matches the row
of the opcode map that carries the command's mnemonic (30_encoding.md R83). -/

/-- The bank field lies outside the mask of format `B` (30_encoding.md R81). -/
theorem Sys2Proof.formatB_masked (op : BitVec 4) (b : Nat) :
    Sys2Proof.formatB op b &&& 0xFFF0#16 = op ++ 0#12 := by
  unfold Sys2Proof.formatB
  generalize BitVec.ofNat 4 b = x
  revert op x
  decide

namespace Sys2Proof.Laws.RowOf

/-- The command's word, where it has one, is accepted by the command's own row of the opcode map. -/
def Statement (i : Instr) : Prop :=
  i.WellFormed → ∃ r ∈ opRows, r.mnemonic = i.mnemonic ∧ r.accepts (encode i) = true

theorem nop : Statement .nop := fun _ => by decide

theorem iter (d : Dir) (inPlace : Bool) : Statement (.iter d inPlace) := fun _ => by
  cases d <;> cases inPlace <;> decide

theorem rste : Statement .rste := fun _ => by decide

theorem chlen (d : Dir) : Statement (.chlen d) := fun _ => by
  cases d <;> decide

theorem save (b : Nat) : Statement (.save b) := fun _ =>
  ⟨⟨"SAVE", 0x4000, 0xFFF0, fun w => .save (fieldB w)⟩, by simp [opRows], rfl, by
    show (formatB 0x4#4 b &&& 0xFFF0#16 == 0x4000#16) = true
    rw [formatB_masked]; decide⟩

theorem stage (b : Nat) : Statement (.stage b) := fun _ =>
  ⟨⟨"STAGE", 0x5000, 0xFFF0, fun w => .stage (fieldB w)⟩, by simp [opRows], rfl, by
    show (formatB 0x5#4 b &&& 0xFFF0#16 == 0x5000#16) = true
    rw [formatB_masked]; decide⟩

theorem evRotl : Statement .evRotl := fun _ => by decide

theorem evRotr : Statement .evRotr := fun _ => by decide

theorem evClick : Statement .evClick := fun _ => by decide

theorem evDclick : Statement .evDclick := fun _ => by decide

theorem evHold : Statement .evHold := fun _ => by decide

theorem evCancel : Statement .evCancel := fun _ => by decide

theorem fset : Statement .fset := fun _ => by decide

theorem fclr : Statement .fclr := fun _ => by decide

theorem drunk : Statement .drunk := fun _ => by decide

end Sys2Proof.Laws.RowOf
end

