-- ==== Sys2Proof/Tests/Slice0.lean ====
section
/-! SUPPORT. Tests: the checks of WellFormed, decoding of written-out words, the assembler, one-step
vectors of 95_test_vectors.md (named at each test), and a witness for the hypotheses of each statement.
No test rests on a draw or an OPEN parameter of the board: the test block's parameters are those the
vectors use. -/

namespace Sys2Proof.Tests

open Sys2Proof.Machine

/-! ### A test block -/

/-- The parameters of 95_test_vectors.md; the four OPEN trigger wirings and the initial patterns are
any. -/
def params : Params where
  nBanks := 8
  fs := 1023
  pLow := 64
  pHigh := 960
  cvThresh := 511
  cvRule := .highOnly
  resetPolicy := .deferred
  stepInPlace := true
  zeroRotation := .word16
  pulseFn3 := ⟨.and, 1, 2⟩
  pulseFn5 := ⟨.xor, 2, 5⟩
  pulseFn6 := ⟨.and, 4, 4⟩
  pulseFn7 := ⟨.xor, 0, 7⟩
  initPattern := [10, 11, 12, 13, 14, 15, 16, 17]
  initLidx := 6
  cmdByteOrder := .big

/-- "Pass-through inputs" of 95_test_vectors.md. -/
def through : Inputs := ⟨1023, 0, 0, .one, .plus⟩

/-- The state the vectors start from: power-on, every entry `(0x0000, 6)`, pass-through inputs, and the
register, length index and offset given. -/
def start (v : Word) (l : LenIdx) (o : Int) : State :=
  { State.powerOn params with
    reg := v, lidx := l, ofs := storeOffset o, inp := through, store := List.replicate 8 ⟨0, 6⟩ }

/-- `0x00B5`, L = 8, at the downbeat: the start of most vectors. -/
def s0 : State := start 0x00B5 6 0

/-- The outcome is a next state with the property. -/
def leaves (r : Result) (p : State → Bool) : Bool :=
  match r with
  | .next t => p t
  | .fault _ => false
  | .refused _ => false

/-- Register, length index and offset are as given. -/
def has (v : Word) (l : LenIdx) (o : Int) (t : State) : Bool :=
  t.reg == v && t.lidx == l && offsetOf t.ofs == o

/-! ### WellFormed: an ill-formed term for each check -/

theorem test_save_bank_refused : (Instr.save 16).wellFormed = false := by decide
theorem test_stage_bank_refused : (Instr.stage 16).wellFormed = false := by decide
theorem test_last_bank_accepted :
    (Instr.save 15).wellFormed = true ∧ (Instr.stage 15).wellFormed = true := by decide

/-! ### Decoding: words written out from the encodings of 30_encoding.md R83 (T-ENC-1) -/

theorem test_decode_nop : decodeTableWord 16 0b0000000000000000 = some .nop := by decide
theorem test_decode_iter :
    decodeTableWord 16 0b0001000000000000 = some (.iter .fwd false) ∧
    decodeTableWord 16 0b0001000000000001 = some (.iter .bwd false) ∧
    decodeTableWord 16 0b0001000000000010 = some (.iter .fwd true) ∧
    decodeTableWord 16 0b0001000000000011 = some (.iter .bwd true) := by decide
theorem test_decode_rste : decodeTableWord 16 0b0010000000000000 = some .rste := by decide
theorem test_decode_chlen :
    decodeTableWord 16 0b0011000000000000 = some (.chlen .fwd) ∧
    decodeTableWord 16 0b0011000000000001 = some (.chlen .bwd) := by decide
theorem test_decode_save :
    decodeTableWord 16 0b0100000000001111 = some (.save 15) ∧
    decodeTableWord 16 0b0100000000000100 = some (.save 4) := by decide
theorem test_decode_stage :
    decodeTableWord 16 0b0101000000000101 = some (.stage 5) ∧
    decodeTableWord 16 0b0101000000001000 = some (.stage 8) := by decide
theorem test_decode_panel :
    decodeTableWord 16 0b0110000000000000 = some .evRotl ∧
    decodeTableWord 16 0b0110000000000001 = some .evRotr ∧
    decodeTableWord 16 0b0110000000000010 = some .evClick ∧
    decodeTableWord 16 0b0110000000000011 = some .evDclick ∧
    decodeTableWord 16 0b0110000000000100 = some .evHold ∧
    decodeTableWord 16 0b0110000000000101 = some .evCancel := by decide
theorem test_decode_force :
    decodeTableWord 16 0b0111000000000000 = some .fset ∧
    decodeTableWord 16 0b0111000000000001 = some .fclr := by decide
theorem test_decode_drunk : decodeTableWord 16 0b1000000000000000 = some .drunk := by decide

/-- The reserved words of T-ENC-1, by the clause of R89. -/
theorem test_decode_reserved :
    decode 0x0001 = .error .unassignedBits ∧ decode 0x1004 = .error .unassignedBits ∧
    decode 0x1100 = .error .unassignedBits ∧ decode 0x2001 = .error .unassignedBits ∧
    decode 0x3002 = .error .unassignedBits ∧ decode 0x4010 = .error .unassignedBits ∧
    decode 0x6006 = .error .reservedEvent ∧ decode 0x6100 = .error .unassignedBits ∧
    decode 0x7002 = .error .unassignedBits ∧ decode 0x8001 = .error .unassignedBits ∧
    decode 0x9000 = .error .reservedOpcode ∧ decode 0xFFFF = .error .reservedOpcode := by
  refine ⟨?_, ?_, ?_, ?_, ?_, ?_, ?_, ?_, ?_, ?_, ?_, ?_⟩ <;> rfl

/-- The words of the programs of 95_test_vectors.md, as the encoder writes them. -/
theorem test_encode :
    [Instr.clock, .stepb, .prevf, .prevb, .longer, .shorter, .rste, .save 3, .stage 3, .evDclick,
      .evRotr, .evClick, .evRotl, .fclr, .fset, .drunk, .nop].map encode =
    [0x1000, 0x1001, 0x1002, 0x1003, 0x3000, 0x3001, 0x2000, 0x4003, 0x5003, 0x6003,
      0x6001, 0x6002, 0x6000, 0x7001, 0x7000, 0x8000, 0x0000] := by decide

/-! ### Assembler (30_encoding.md R91, R92) -/

theorem test_read_line :
    readLine ['I', 'T', 'E', 'R', ' ', 'F', ',', ' ', '0', ' ', ';', 'x'] =
      some ⟨"ITER", ["F", "0"]⟩ := by decide
theorem test_read_comment_only : readLine [' ', ';', 'N', 'O', 'P'] = none := by decide
theorem test_assemble :
    assemble ⟨"SAVE", ["3"]⟩ = some (.save 3) ∧ assemble ⟨"ITER", ["B", "1"]⟩ = some Instr.prevb ∧
    assemble ⟨"SHORTER", []⟩ = some (.chlen .bwd) ∧ assemble ⟨"SAVE", ["16"]⟩ = none := by decide

/-! ### One step of each command -/

/-- T-NOP-1. -/
theorem test_nop : exec .nop s0 = .next s0 := rfl

/-- T-SE-1, T-SE-2. -/
theorem test_iter_in_place :
    leaves (exec (.iter .fwd true) (start 0x0801 10 0)) (has 0x1003 10 0) = true ∧
    leaves (exec (.iter .bwd true) (start 0x0040 0 0)) (has 0x00A0 0 0) = true ∧
    leaves (exec (.iter .bwd true) (start 0x0200 11 0)) (has 0x0180 11 0) = true := by decide

/-- T-SE-3, T-L1-9 (a), T-SE-4: the wrap at both ends, no wrap toward 0, and the load at a downbeat. -/
theorem test_iter_transport :
    leaves (exec (.iter .fwd false) (start 0x0005 1 2)) (has 0x000B 1 0) = true ∧
    leaves (exec (.iter .fwd false) (start 0x0005 1 (-2))) (has 0x000B 1 (-1)) = true ∧
    leaves (exec (.iter .bwd false) (start 0x0005 12 (-15))) (has 0x8002 12 0) = true ∧
    leaves (exec (.iter .fwd false)
        { start 0x0005 1 2 with nlp := true, next := 3, store := [⟨1, 6⟩, ⟨2, 6⟩, ⟨3, 6⟩, ⟨0x9249, 1⟩] })
      (fun t => has 0x9249 1 0 t && t.bank == 3 && !t.nlp && t.npl && t.next == 3) = true := by decide

/-- T-RS-1, T-RS-3: both kinds of rotation; a second RSTE rotates by 0. -/
theorem test_rste :
    leaves (exec .rste (start 0x5795 10 5)) (fun t => has 0xAABC 10 5 t && t.rp && !t.wr) = true ∧
    leaves (exec .rste { start 0x616B 6 3 with rp := true }) (has 0x616B 6 3) = true ∧
    leaves (exec .rste { start 0xE1FE 10 5 with cfg := { params with zeroRotation := .loopWindow } })
      (has 0xEF0F 10 5) = true ∧
    leaves (exec .rste { start 0xA076 2 (-3) with cfg := { params with zeroRotation := .loopWindow } })
      (has 0xA0B6 2 (-3)) = true := by decide

/-- T-RS-2. -/
theorem test_rste_immediate :
    leaves (exec .rste { start 0xE005 10 (-5) with cfg := { params with resetPolicy := .immediate } })
      (fun t => has 0x00BC 10 0 t && !t.rp && t.wr) = true := by decide

/-- T-CL-1: an edge, the jump from 15 to 12, the sign of the offset kept. -/
theorem test_chlen :
    leaves (exec (.chlen .bwd) (start 0x1234 0 1)) (has 0x1234 0 1) = true ∧
    leaves (exec (.chlen .fwd) (start 0x1234 12 15)) (has 0x1234 12 15) = true ∧
    leaves (exec (.chlen .bwd) (start 0x1234 11 (-13))) (has 0x1234 10 (-1)) = true ∧
    leaves (exec (.chlen .bwd) (start 0x1234 6 7)) (has 0x1234 5 0) = true ∧
    leaves (exec (.chlen .fwd) (start 0x1234 10 (-11))) (has 0x1234 11 (-11)) = true := by decide

/-- T-PST-1: the scratch rotation, the bank modulo 8, and a pending reset. -/
theorem test_save :
    leaves (exec (.save 3) (start 0x0B5B 6 4))
      (fun t => has 0x0B5B 6 4 t && storeRead t.store 3 == some ⟨0xB5B5, 6⟩) = true ∧
    leaves (exec (.save 11) (start 0x0005 1 0))
      (fun t => storeRead t.store 3 == some ⟨0xDB6D, 1⟩) = true ∧
    leaves (exec (.save 0) { start 0xB0B5 6 4 with rp := true })
      (fun t => storeRead t.store 0 == some ⟨0xB5B5, 6⟩ && t.rp && has 0xB0B5 6 4 t) = true := by decide

/-- R174's example, and the bank modulo 8. -/
theorem test_stage :
    leaves (exec (.stage 5) s0) (fun t => t.next == 5 && t.nlp && has 0x00B5 6 0 t) = true ∧
    leaves (exec (.stage 13) s0) (fun t => t.next == 5) = true := by decide

/-- T-PS-2: an override inside a transport ITER, and one that an in-place ITER leaves armed. -/
theorem test_fset :
    leaves (exec .fset s0) (fun t => t.fset && !t.fclr) = true ∧
    leaves (exec (.iter .fwd false) { start 0x0035 6 0 with fset := true, fclr := true })
      (fun t => has 0x006B 6 1 t && !t.fset && t.fclr) = true := by decide

theorem test_fclr :
    leaves (exec .fclr s0) (fun t => t.fclr && !t.fset) = true ∧
    leaves (exec (.iter .fwd false) { s0 with fclr := true })
      (fun t => has 0x016A 6 1 t && !t.fclr) = true ∧
    leaves (exec (.iter .fwd true) { s0 with fclr := true })
      (fun t => has 0x016B 6 0 t && t.fclr) = true := by decide

/-- T-DR-1. -/
theorem test_drunk :
    leaves (exec .drunk { s0 with didx := 0, inp := { through with m := .three, s := .minus } })
      (fun t => t.didx == 5) = true ∧
    leaves (exec .drunk { s0 with didx := 6, inp := { through with m := .three } })
      (fun t => t.didx == 1) = true ∧
    leaves (exec .drunk { s0 with didx := 1, inp := { through with m := .two, s := .minus } })
      (fun t => t.didx == 7) = true := by decide

/-- The mode, the slot and the emitted command are as given. -/
def panelIs (m : Mode) (k : BitVec 4) (c : Byte) (t : State) : Bool :=
  t.mode == m && t.slot == k && t.mcCmd == c

/-- T-MC-1's start in a mode. -/
def inMode (m : Mode) : State := { s0 with mode := m, slot := 7 }

/-- T-MC-1, T-MC-2, RotateLeft. -/
theorem test_ev_rotl :
    leaves (exec .evRotl (inMode .performance))
      (fun t => panelIs .performance 7 0x21 t && has 0x80DA 6 0 t) = true ∧
    leaves (exec .evRotl (inMode .changeLength))
      (fun t => panelIs .changeLength 7 0x31 t && has 0x00B5 5 0 t) = true ∧
    leaves (exec .evRotl (inMode .patternSave)) (panelIs .patternSave 6 0x60) = true ∧
    leaves (exec .evRotl { inMode .patternLoad with slot := 0 }) (panelIs .patternLoad 7 0x60) = true := by
  decide

/-- T-MC-1, T-MC-2, RotateRight; with `STEP_IN_PLACE` false it may fire the load. -/
theorem test_ev_rotr :
    leaves (exec .evRotr (inMode .performance))
      (fun t => panelIs .performance 7 0x20 t && has 0x016B 6 0 t) = true ∧
    leaves (exec .evRotr (inMode .changeLength))
      (fun t => panelIs .changeLength 7 0x30 t && has 0x00B5 7 0 t) = true ∧
    leaves (exec .evRotr (inMode .patternSave)) (panelIs .patternSave 0 0x60) = true ∧
    leaves (exec .evRotr
        { start 0x00B5 6 7 with
          nlp := true, next := 2, cfg := { params with stepInPlace := false }
          store := [⟨1, 6⟩, ⟨2, 6⟩, ⟨0x9249, 1⟩] })
      (fun t => panelIs .performance 0 0x20 t && has 0x9249 1 0 t && t.bank == 2 && t.npl) = true := by
  decide

/-- T-MC-1, Click. -/
theorem test_ev_click :
    leaves (exec .evClick (inMode .performance)) (panelIs .changeLength 7 0x10) = true ∧
    leaves (exec .evClick (inMode .changeLength)) (panelIs .performance 7 0x10) = true ∧
    leaves (exec .evClick (inMode .patternSave)) (panelIs .patternSave 7 0x00) = true ∧
    leaves (exec .evClick (inMode .patternLoad)) (panelIs .patternLoad 7 0x00) = true := by decide

/-- T-MC-1, DoubleClick. -/
theorem test_ev_dclick :
    leaves (exec .evDclick (inMode .performance)) (panelIs .patternLoad 7 0x10) = true ∧
    leaves (exec .evDclick (inMode .changeLength)) (panelIs .changeLength 7 0x00) = true ∧
    leaves (exec .evDclick (inMode .patternSave)) (panelIs .patternSave 7 0x00) = true ∧
    leaves (exec .evDclick (inMode .patternLoad))
      (fun t => panelIs .performance 7 0x47 t && t.next == 7 && t.nlp && has 0x00B5 6 0 t) = true := by
  decide

/-- T-MC-1, Hold. -/
theorem test_ev_hold :
    leaves (exec .evHold (inMode .performance)) (panelIs .patternSave 7 0x10) = true ∧
    leaves (exec .evHold (inMode .changeLength)) (panelIs .changeLength 7 0x00) = true ∧
    leaves (exec .evHold (inMode .patternLoad)) (panelIs .patternLoad 7 0x00) = true ∧
    leaves (exec .evHold (inMode .patternSave))
      (fun t => panelIs .performance 7 0x57 t && storeRead t.store 7 == some ⟨0xB5B5, 6⟩) = true := by
  decide

/-- T-MC-1, Cancel. -/
theorem test_ev_cancel :
    leaves (exec .evCancel (inMode .patternSave))
      (fun t => panelIs .performance 7 0x10 t && t.store == s0.store) = true ∧
    leaves (exec .evCancel (inMode .performance)) (panelIs .performance 7 0x10) = true := by decide

/-! ### The Probability Source, the pattern operations, the outputs -/

/-- T-PS-1, the rows at the boundaries of the bands and of the CV threshold. -/
theorem test_stochasticize :
    ([(961, 511, 0), (961, 512, 0), (960, 600, 959), (960, 600, 960), (63, 0, 0), (63, 600, 0),
      (64, 600, 63), (64, 600, 64)].map fun q : Nat × Nat × Nat =>
        [CvRule.highOnly, .lowOnly, .both].map fun r =>
          regenerate { params with cvRule := r } ⟨q.1, q.2.1, q.2.2, .one, .plus⟩ true) =
    [[true, true, true], [false, true, false], [true, true, true], [false, false, false],
      [false, false, false], [false, true, true], [true, true, true], [false, false, false]] := by
  decide

/-- T-L1-3. -/
theorem test_norm :
    normPattern 0x0B5B 12 = 0xBB5B ∧ normPattern 0x0007 15 = 0x8007 ∧
      normPattern 0xABCD 16 = 0xABCD := by decide

/-- T-L1-2, and T-RS-3's first two rows under LOOP_WINDOW. -/
theorem test_rotate_to_zero :
    rotateToZero .word16 8 0x1234 5 = 0xA091 ∧ rotateToCurrentStep .word16 8 0xA091 5 = 0x1234 ∧
    rotateToZero .word16 8 0x1234 (-3) = 0x91A0 ∧
    rotateToCurrentStep .word16 8 0x91A0 (-3) = 0x1234 ∧
    rotateToZero .loopWindow 8 0x0B5B 4 = 0x0BB5 ∧
    rotateToZero .loopWindow 8 0x80DA (-1) = 0x80B5 := by decide

/-- T-RS-3, row 4: under WORD16 a reset after more than `16 - L` steps need not restore the loop
(41_shift_engine.md R139): bit 11 of the step-0 pattern `0xF0F` is lost. -/
theorem test_word16_may_not_restore :
    rotateToZero .word16 12 0xE1FE 5 = 0xF70F ∧
      (rotateToZero .word16 12 0xE1FE 5).getLsbD 11 ≠ (0x0F0F#16).getLsbD 11 := by decide

/-- R130's list of the backward taps. -/
theorem test_backward_taps :
    (List.finRange 13).map (fun l => tapIndex .bwd (len l)) =
      [6, 5, 4, 3, 2, 1, 0, 15, 14, 13, 12, 9, 8] := by decide

/-- T-OUT-1: trigger bits 0, 1, 2 and 4. -/
theorem test_pulse :
    ([0x00, 0xFF, 0x09, 0x42, 0x02, 0x48, 0xB5, 0x41].map fun x : Byte =>
      [0, 1, 2, 4].map fun k => (pulseIt params x).getLsbD k) =
    [[false, true, false, false], [true, false, true, false], [true, false, true, false],
      [false, true, false, false], [false, true, false, true], [false, true, false, true],
      [true, false, false, false], [true, false, false, true]] := by decide

/-- T-OUT-2: the ports at the ends of the programs P2 and P1. -/
theorem test_ports :
    xportOut { start 0xB5B5 6 0 with bank := 3, next := 3, npl := true } = 0x3006B5B5 ∧
    statusOut { start 0xB5B5 6 0 with bank := 3, next := 3, npl := true } = 0x0008 ∧
    xport2Out { start 0xB5B5 6 0 with bank := 3, next := 3, npl := true } = 0x7003 ∧
    visOut (start 0xB5B5 6 0) = 0xB5 ∧
    xportOut (start 0x0073 3 (-1)) = 0x01F30073 ∧ xport2Out (start 0x0073 3 (-1)) = 0x4000 := by decide

/-! ### The step -/

/-- A word presented next is what the next step runs: EV.HOLD in PatternSave. -/
theorem test_step_runs_the_word :
    leaves (step ((inMode .patternSave).withFetchWord 16 0x6004)) (panelIs .performance 7 0x57) = true := by
  decide

/-- T-ENC-1: 0x9000 sets `CMD_ERR` and changes nothing else. -/
theorem test_step_reserved :
    step ({ s0 with fset := true }.withFetchWord 16 0x9000) =
      .next { s0 with fset := true, cmdErr := true } := rfl

/-! ### Witnesses: states and operands that meet the hypotheses of each statement -/

/-- A transport ITER presented to a block with bank 3 staged, one step before the downbeat. -/
def staged : State :=
  { start 0x00B5 6 7 with
    nlp := true, next := 3, script := present [(.clock, through)] }

/-- The test block under LOOP_WINDOW. -/
def windowed (s : State) : State := { s with cfg := { s.cfg with zeroRotation := .loopWindow } }

/-- A block whose panel Step is a transport step. -/
def stepping (s : State) : State := { s with cfg := { s.cfg with stepInPlace := false } }

theorem witness_PowerOnHoldsTheSpecifiedValues :
    params.Valid ∧ 0 < params.nBanks ∧ 7 < params.nBanks := by decide

theorem witness_InvariantsHoldAtPowerOnAndAfterEveryStep :
    params.Valid ∧ Lawful staged ∧ ∃ t, step staged = .next t := ⟨by decide, by decide, _, rfl⟩

theorem witness_LawfulRunsNeverStop : Lawful staged ∧ Lawful (start 0 0 (-1)) := by decide

theorem witness_EmittedCommandCodeKeepsItsLayout :
    Lawful staged ∧ mcCmdLegal staged.cfg.nBanks staged.mcCmd ∧ ∃ t, step staged = .next t :=
  ⟨by decide, by decide, _, rfl⟩

theorem witness_CommandErrorIsStickyAndParametersAreConstant :
    (∃ t, step { staged with cmdErr := true } = .next t) ∧
    (∃ t, step { s0 with script := [⟨0x9000, through⟩] } = .next t) ∧
    decode 0x9000 = .error .reservedOpcode ∧ (∃ t, exec .nop s0 = .next t) :=
  ⟨⟨_, rfl⟩, ⟨_, rfl⟩, rfl, _, rfl⟩

theorem witness_DecodeOfEncodeIsTheCommand :
    (Instr.save 0).WellFormed ∧ (Instr.stage 15).WellFormed ∧ (Instr.iter .bwd true).WellFormed := by
  decide

theorem witness_DecodedWordIsTheCommandsWord : decode 0x400F = .ok (.save 15) := rfl

theorem witness_ReservedWordsAreExactlyTheListed : Lawful s0 := by decide

theorem witness_AssemblyRoundTrip : (Instr.save 15).WellFormed := by decide

theorem witness_StepRunsThePresentedCommand :
    staged.script = ⟨0x1000, through⟩ :: [] ∧ decode 0x1000 = .ok (.iter .fwd false) := ⟨rfl, rfl⟩

theorem witness_ReservedWordSetsOnlyCommandError :
    ({ s0 with script := [⟨0x0001, through⟩] } : State).script = ⟨0x0001, through⟩ :: [] ∧
      decode 0x0001 = .error .unassignedBits := ⟨rfl, rfl⟩

theorem witness_IdleBlockHoldsItsState : s0.script = [] := rfl

theorem witness_ForceCommandsArmTheirOverride :
    (∃ t, exec .rste { s0 with fset := true, fclr := true } = .next t) ∧
    transportDir .rste { s0 with fset := true, fclr := true } = none ∧
    (∃ t, exec .clock { s0 with fset := true, fclr := true, rp := true } = .next t) :=
  ⟨⟨_, rfl⟩, rfl, _, rfl⟩

theorem witness_DrunkWalksModuloEight :
    Instr.clock ≠ .drunk ∧ ∃ t, exec .clock s0 = .next t := ⟨by decide, _, rfl⟩

/-- The bands at their boundaries: 961 high, 960 and 64 middle, 63 low. -/
theorem witness_StochasticizeFollowsItsBands :
    s0.fset = false ∧ s0.fclr = false ∧ s0.cfg.pHigh < 961 ∧
    (s0.cfg.pLow ≤ 960 ∧ 960 ≤ s0.cfg.pHigh) ∧ (s0.cfg.pLow ≤ 64 ∧ 64 ≤ s0.cfg.pHigh) ∧
    (63 ≤ s0.cfg.pHigh ∧ 63 < s0.cfg.pLow) ∧ ({ s0 with fset := true } : State).fset = true ∧
    ({ s0 with fclr := true } : State).fset = false ∧ ({ s0 with fclr := true } : State).fclr = true := by
  decide

theorem witness_PassThroughCondition : s0.cfg.Valid := by decide

theorem witness_OverridesAreConsumedOnlyByTransportSteps :
    (∃ t, exec .clock { s0 with fset := true } = .next t) ∧ Instr.clock ≠ .fset ∧ Instr.clock ≠ .fclr :=
  ⟨⟨_, rfl⟩, by decide, by decide⟩

theorem witness_TransportIterTakesThePendingReset :
    ({ start 0x00B5 6 7 with rp := true } : State).rp = true := rfl

/-- With nothing staged at the wrap, and with a bank staged one step before it. -/
theorem witness_TransportIterRotatesAndAdvances :
    (Lawful (start 1 6 7) ∧ (start 1 6 7).rp = false ∧ (start 1 6 7).nlp = false) ∧
    (Lawful { start 1 6 6 with nlp := true } ∧ offsetOf (start 1 6 6).ofs + dirStep .fwd ≠ 0 ∧
      (offsetOf (start 1 6 6).ofs + dirStep .fwd).natAbs ≠ len (start 1 6 6).lidx) := by decide

/-- The downbeat reached at `L`, at `-L` and at 0 from either side. -/
theorem witness_TransportIterLoadsAtTheDownbeat :
    (Lawful staged ∧ staged.rp = false ∧ staged.nlp = true) ∧
    (offsetOf staged.ofs + dirStep .fwd).natAbs = len staged.lidx ∧
    (Lawful { start 1 6 (-7) with nlp := true } ∧
      (offsetOf (start 1 6 (-7)).ofs + dirStep .bwd).natAbs = len (start 1 6 (-7)).lidx) ∧
    (Lawful { start 1 6 1 with nlp := true } ∧ offsetOf (start 1 6 1).ofs + dirStep .bwd = 0) ∧
    (Lawful { start 1 6 (-1) with nlp := true } ∧ offsetOf (start 1 6 (-1)).ofs + dirStep .fwd = 0) :=
  ⟨by decide, by decide, by decide, by decide, by decide⟩

theorem witness_StagedLoadFiresOnlyAtADownbeat :
    Lawful staged ∧ staged.nlp = true ∧ staged.npl = false ∧
      ∃ t, exec .clock staged = .next t ∧ t.bank ≠ staged.bank ∧ t.npl = true :=
  ⟨by decide, rfl, rfl, _, rfl, by decide, rfl⟩

theorem witness_OffsetAdvanceWrapsAtTheLength :
    (offsetOf (storeOffset 15)).natAbs < len 12 ∧ (offsetOf (storeOffset (-1))).natAbs < len 0 := by
  decide

theorem witness_RotateToZeroMovesEveryBit :
    (15 : Int).natAbs < 16 ∧ (-15 : Int).natAbs < 16 ∧ (1 : Int) ≠ 0 ∧ (1 : Int).natAbs < len 0 ∧
      (-15 : Int).natAbs < len 12 ∧ windowPos false (len 0) 0 ≠ 2 ∧ windowPos false (len 0) 1 ≠ 2 := by
  decide

theorem witness_RotateToCurrentStepInvertsRotateToZero :
    (15 : Int).natAbs < len 12 ∧ (-1 : Int).natAbs < len 0 ∧ (0 : Int).natAbs < len 0 := by decide

theorem witness_ResetEdgeRotatesToStepZero :
    s0.cfg.resetPolicy = .deferred ∧
    ({ s0 with cfg := { params with resetPolicy := .immediate } } : State).cfg.resetPolicy = .immediate ∧
    ∃ t, exec .rste s0 = .next t := ⟨rfl, rfl, _, rfl⟩

theorem witness_DeferredResetIsTakenByTheNextTransportStep : s0.cfg.resetPolicy = .deferred := rfl

/-- A downbeat with `k` forward transport ITERs and an RSTE presented. -/
def resetAfter (l : LenIdx) (k : Nat) : State :=
  { start 1 l 0 with
    script := transportsOf .fwd (List.replicate k through) ++ present [(.rste, through)] }

/-- The flags ITER reads, as a run of pure steps needs them. -/
theorem resetAfter_flags (l : LenIdx) (k : Nat) :
    (resetAfter l k).ofs = 0 ∧ (resetAfter l k).rp = false ∧ (resetAfter l k).nlp = false ∧
      (resetAfter l k).fset = false ∧ (resetAfter l k).fclr = false := ⟨rfl, rfl, rfl, rfl, rfl⟩

/-- L = 12 under WORD16 with four steps, its most; L = 12 under LOOP_WINDOW with eleven; L = 16 with
fifteen; L = 2 with one. -/
theorem witness_ResetAfterPureStepsRestoresTheLoop :
    (Lawful (resetAfter 10 4) ∧ 4 < len 10 ∧ 4 ≤ 16 - len 10) ∧
    (Lawful (windowed (resetAfter 10 11)) ∧ 11 < len 10 ∧
      (windowed (resetAfter 10 11)).cfg.zeroRotation = .loopWindow) ∧
    (Lawful (resetAfter 12 15) ∧ 15 < len 12 ∧ len 12 = 16) ∧
    (Lawful (resetAfter 0 1) ∧ 1 < len 0 ∧ 1 ≤ 16 - len 0) ∧
    (∀ y ∈ List.replicate 15 through, PassThrough params y) :=
  ⟨by decide, by decide, by decide, by decide, by decide⟩

/-- Eight in-place ITERs presented to a block with L = 8, in either direction, and two with L = 2. -/
theorem witness_InPlaceLoopsCloseAfterTheLength :
    (∃ (s : State) (xs : List Inputs), xs.length = len s.lidx ∧ len s.lidx = 8 ∧
      s.script = present (xs.map fun x => (.iter .fwd true, x))) ∧
    (∃ (s : State) (xs : List Inputs), xs.length = len s.lidx ∧ len s.lidx = 2 ∧
      s.script = present (xs.map fun x => (.iter .bwd true, x))) :=
  ⟨⟨{ s0 with script := present ((List.replicate 8 through).map fun x => (.iter .fwd true, x)) },
      List.replicate 8 through, rfl, rfl, rfl⟩,
    { start 1 0 0 with
      script := present ((List.replicate 2 through).map fun x => (.iter .bwd true, x)) },
    List.replicate 2 through, rfl, rfl, rfl⟩

/-- L = 8, L = 16, a normalised register with L = 3, and a length that is neither 8 nor 16. -/
theorem witness_ReversalRestoresOnlyFullLoops :
    Dir.fwd ≠ Dir.bwd ∧ len s0.lidx = 8 ∧ len (start 1 12 0).lidx = 16 ∧
      (start 0xDB6D 1 0).reg = normPattern 0x0005 (len (start 0xDB6D 1 0).lidx) ∧
      (len 1 ≠ 8 ∧ len 1 ≠ 16) ∧ ∃ t u, exec .prevf s0 = .next t ∧ exec .prevb t = .next u :=
  ⟨by decide, by decide, by decide, by decide, by decide, _, _, rfl, rfl⟩

theorem witness_ChangeLengthMovesOneTableEntry :
    Lawful (start 1 12 15) ∧ (start 1 12 15).lidx.val = 12 ∧ Lawful (start 1 0 1) ∧
      (start 1 0 1).lidx.val = 0 ∧ Lawful (start 1 11 (-13)) ∧
      ¬ ((Dir.bwd = .fwd ∧ (start 1 11 (-13)).lidx.val = 12) ∨
        (Dir.bwd = .bwd ∧ (start 1 11 (-13)).lidx.val = 0)) := by decide

theorem witness_SaveWritesOneBank : Lawful { start 1 12 15 with rp := true } := by decide

theorem witness_StageRecordsTheBank : Lawful s0 ∧ ∃ t, exec (.stage 15) s0 = .next t :=
  ⟨by decide, _, rfl⟩

/-- One step before the downbeat, and a whole loop before it, in either direction. -/
theorem witness_StagedLoadLatency :
    Lawful staged ∧ staged.rp = false ∧ staged.nlp = true ∧
    [through].length = stepsToDownbeat .fwd (len staged.lidx) (offsetOf staged.ofs) ∧
    staged.script = transportsOf .fwd [through] ++ [] ∧
    stepsToDownbeat .fwd 8 0 = 8 ∧ stepsToDownbeat .bwd 8 0 = 8 ∧ stepsToDownbeat .fwd 8 (-3) = 3 ∧
    stepsToDownbeat .bwd 8 3 = 3 ∧ stepsToDownbeat .bwd 8 (-3) = 5 := by decide

/-- SAVE 3 and STAGE 3 in the order given, then CLOCK, one step before the downbeat (T-L1-9 (a) with
L = 8). -/
def savedAndStaged (first second : Instr) : State :=
  { start 0x00B5 6 7 with
    script := present [(first, through), (second, through)] ++ transports [(.fwd, through)] }

/-- Either order: the CLOCK takes the staged load, and before it the load is staged. -/
theorem witness_SaveThenStageReproducesTheSavedPattern :
    (Lawful (savedAndStaged (.save 3) (.stage 3)) ∧
      (∃ t, runFor 3 (savedAndStaged (.save 3) (.stage 3)) = .next t ∧ t.nlp = false) ∧
      ∃ u, runFor 2 (savedAndStaged (.save 3) (.stage 3)) = .next u ∧ u.nlp = true) ∧
    (Lawful (savedAndStaged (.stage 3) (.save 3)) ∧
      (∃ t, runFor 3 (savedAndStaged (.stage 3) (.save 3)) = .next t ∧ t.nlp = false) ∧
      ∃ u, runFor 2 (savedAndStaged (.stage 3) (.save 3)) = .next u ∧ u.nlp = true) :=
  ⟨⟨by decide, ⟨_, rfl, rfl⟩, _, rfl, rfl⟩, by decide, ⟨_, rfl, rfl⟩, _, rfl, rfl⟩

/-- SAVE into its bank modulo 8 and a confirming Hold both change the store, and bank 0 is another
bank than either writes. -/
theorem witness_StoreIsWrittenOnlyBySaves :
    (∃ t, exec (.save 15) s0 = .next t ∧ t.store ≠ s0.store) ∧
    (0 ≠ (reduceBank s0.cfg 15).toNat ∧ (reduceBank s0.cfg 15).toNat = 7) ∧
    (inMode .patternSave).mode = .patternSave ∧
    (∃ t, exec .evHold (inMode .patternSave) = .next t ∧ t.store ≠ (inMode .patternSave).store) ∧
    0 ≠ (reduceBank params (inMode .patternSave).slot.toNat).toNat ∧ Lawful (inMode .patternSave) :=
  ⟨⟨_, rfl, by decide⟩, by decide, rfl, ⟨_, rfl, by decide⟩, by decide, by decide⟩

theorem witness_RotateEventsStepLengthenOrMoveTheSlot :
    Lawful (inMode .performance) ∧ Lawful (inMode .changeLength) ∧ Lawful (inMode .patternSave) ∧
      Lawful { inMode .patternLoad with slot := 0 } ∧ Lawful (stepping staged) :=
  ⟨by decide, by decide, by decide, by decide, by decide⟩

theorem witness_DoubleClickEntersAndConfirmsALoad :
    Lawful (inMode .patternLoad) ∧ Lawful (inMode .performance) := by decide

theorem witness_HoldEntersAndConfirmsASave :
    Lawful (inMode .patternSave) ∧ Lawful (inMode .performance) ∧ Lawful (inMode .changeLength) := by
  decide

theorem witness_OnlyPanelEventsWriteTheModeController :
    isPanel .clock = false ∧ ∃ t, exec .clock staged = .next t := ⟨rfl, _, rfl⟩

/-- Each of the five registers is written by some command. -/
theorem witness_EngineRegistersHaveOnlyTheirWriters :
    (∃ t, exec .clock s0 = .next t ∧ t.reg ≠ s0.reg ∧ t.ofs ≠ s0.ofs) ∧
    (∃ t, exec .longer s0 = .next t ∧ t.lidx ≠ s0.lidx) ∧
    (∃ t, exec (.stage 5) s0 = .next t ∧ t.next ≠ s0.next) ∧
    (∃ t, exec .rste s0 = .next t ∧ t.rp ≠ s0.rp) :=
  ⟨⟨_, rfl, by decide, by decide⟩, ⟨_, rfl, by decide⟩, ⟨_, rfl, by decide⟩, _, rfl, by decide⟩

theorem witness_InputsMatterOnlyToTransportStepsAndDrunk :
    Instr.prevf ≠ .drunk ∧ transportDir .prevf s0 = none ∧ Instr.clock ≠ .drunk ∧
      ({ s0 with rp := true } : State).rp = true ∧ ({ s0 with fset := true } : State).fset = true := by
  decide

theorem witness_ObservationPortsDetermineEveryRegister :
    statusOut s0 = statusOut { s0 with store := [] } ∧ xportOut s0 = xportOut { s0 with store := [] } ∧
      xport2Out s0 = xport2Out { s0 with store := [] } := ⟨rfl, rfl, rfl⟩

theorem witness_TriggerByteIsAFunctionOfTheVisibleByte :
    (∃ t, exec .longer s0 = .next t ∧ visOut t = visOut s0) ∧
      (3, params.pulseFn3) ∈ [(3, params.pulseFn3), (5, params.pulseFn5)] :=
  ⟨⟨_, rfl, rfl⟩, by decide⟩

end Sys2Proof.Tests
end

/-! # Proofs about the state: what a command can do, the invariants, writers, inputs and ports -/

namespace Sys2Proof.Machine

/-! ### Everything a command can do -/

/-- The panel rotations, each with the direction of the step or length change it asks for
(44_mode_controller.md R210, R211). -/
abbrev Rotates (i : Instr) (d : Dir) : Prop :=
  (i = .evRotl ∧ d = .bwd) ∨ (i = .evRotr ∧ d = .fwd)

/-- `Ran s i t`: the command `i` completes from `s` and leaves `t`. A panel event stands under the
engine operation it dispatches; `panelOnly` collects the events that dispatch none. -/
inductive Ran (s : State) : Instr → State → Prop
  | nop : Ran s .nop s
  | iter {d : Dir} {p : Bool} {t : State} (h : iterate d p s = .next t) : Ran s (.iter d p) t
  | rste : Ran s .rste (resetEdge s)
  | chlen (d : Dir) : Ran s (.chlen d) (changeLength d s)
  | save {b : Nat} {t : State} (h : savePattern b s = .next t) : Ran s (.save b) t
  | stage (b : Nat) : Ran s (.stage b) (setNextPattern b s)
  | fset : Ran s .fset (s.setFset true)
  | fclr : Ran s .fclr (s.setFclr true)
  | drunk : Ran s .drunk (s.setDidx (walkIndex s.didx s.inp))
  | panelStep {i : Instr} {d : Dir} {t : State} (hi : Rotates i d) (hm : s.mode = .performance)
      (h : iterate d s.cfg.stepInPlace
        (s.panel .performance s.slot (emittedCode (.step d))) = .next t) : Ran s i t
  | panelLength {i : Instr} {d : Dir} (hi : Rotates i d) (hm : s.mode = .changeLength) :
      Ran s i (changeLength d (s.panel .changeLength s.slot (emittedCode (.length d))))
  | panelLoad (hm : s.mode = .patternLoad) :
      Ran s .evDclick
        (setNextPattern s.slot.toNat (s.panel .performance s.slot (emittedCode (.load s.slot))))
  | panelSave {t : State} (hm : s.mode = .patternSave)
      (h : savePattern s.slot.toNat
        (s.panel .performance s.slot (emittedCode (.save s.slot))) = .next t) : Ran s .evHold t
  | panelOnly {i : Instr} (md : Mode) {sl : BitVec 4} {e : Emitted} (hi : isPanel i = true)
      (hsl : sl = s.slot ∨ ∃ k, sl = moveSlot s.cfg s.slot k)
      (he : e = .changeMode ∨ e = .leds ∨ e = .noCmd) : Ran s i (s.panel md sl (emittedCode e))

theorem ran_of_execEvRotl {s t : State} (h : execEvRotl s = .next t) : Ran s .evRotl t := by
  unfold execEvRotl onRotateLeft at h
  split at h
  next hm => exact .panelStep (.inl ⟨rfl, rfl⟩) hm h
  next hm => cases h; exact .panelLength (.inl ⟨rfl, rfl⟩) hm
  all_goals cases h; exact .panelOnly _ rfl (.inr ⟨-1, rfl⟩) (.inr (.inl rfl))

theorem ran_of_execEvRotr {s t : State} (h : execEvRotr s = .next t) : Ran s .evRotr t := by
  unfold execEvRotr onRotateRight at h
  split at h
  next hm => exact .panelStep (.inr ⟨rfl, rfl⟩) hm h
  next hm => cases h; exact .panelLength (.inr ⟨rfl, rfl⟩) hm
  all_goals cases h; exact .panelOnly _ rfl (.inr ⟨1, rfl⟩) (.inr (.inl rfl))

theorem ran_of_execEvClick {s t : State} (h : execEvClick s = .next t) : Ran s .evClick t := by
  unfold execEvClick onClick at h
  split at h
  all_goals cases h; exact .panelOnly _ rfl (.inl rfl) (by simp)

theorem ran_of_execEvDclick {s t : State} (h : execEvDclick s = .next t) : Ran s .evDclick t := by
  unfold execEvDclick onDoubleClick at h
  split at h
  case h_4 hm => cases h; exact .panelLoad hm
  all_goals cases h; exact .panelOnly _ rfl (.inl rfl) (by simp)

theorem ran_of_execEvHold {s t : State} (h : execEvHold s = .next t) : Ran s .evHold t := by
  unfold execEvHold onHold at h
  split at h
  case h_3 hm => exact .panelSave hm h
  all_goals cases h; exact .panelOnly _ rfl (.inl rfl) (by simp)

theorem ran_of_execEvCancel {s t : State} (h : execEvCancel s = .next t) : Ran s .evCancel t := by
  cases h
  exact .panelOnly _ rfl (.inl rfl) (.inl rfl)

/-- The inversion of `exec`, from which every statement about all commands follows. -/
theorem ran_of_exec {i : Instr} {s t : State} (h : exec i s = .next t) : Ran s i t := by
  cases i with
  | nop => cases h; exact .nop
  | iter d p => exact .iter h
  | rste => cases h; exact .rste
  | chlen d => cases h; exact .chlen d
  | save b => exact .save h
  | stage b => cases h; exact .stage b
  | evRotl => exact ran_of_execEvRotl h
  | evRotr => exact ran_of_execEvRotr h
  | evClick => exact ran_of_execEvClick h
  | evDclick => exact ran_of_execEvDclick h
  | evHold => exact ran_of_execEvHold h
  | evCancel => exact ran_of_execEvCancel h
  | fset => cases h; exact .fset
  | fclr => cases h; exact .fclr
  | drunk => cases h; exact .drunk

/-! ### What the engine operations leave alone -/

/-- The fields no engine operation writes: those of the Mode Controller, `CMD_ERR` and the model's
own. -/
structure EngineFrame (s t : State) : Prop where
  mode : t.mode = s.mode
  slot : t.slot = s.slot
  mcCmd : t.mcCmd = s.mcCmd
  cmdErr : t.cmdErr = s.cmdErr
  cfg : t.cfg = s.cfg
  inp : t.inp = s.inp
  script : t.script = s.script

theorem transportStep_frame (d : Dir) (s : State) :
    EngineFrame s (transportStep d s.beginTransport) := by
  rw [transportStep_beginTransport]
  exact ⟨rfl, rfl, rfl, rfl, rfl, rfl, rfl⟩

theorem transport_frame {d : Dir} {s t : State} (h : transport d s = .next t) :
    EngineFrame s t := by
  have hstep := transportStep_frame d s
  obtain ⟨-, rfl⟩ | ⟨-, -, rfl⟩ | ⟨-, -, -, e, -, rfl⟩ := transport_cases h
  · exact ⟨rfl, rfl, rfl, rfl, rfl, rfl, rfl⟩
  · exact hstep
  · exact ⟨hstep.mode, hstep.slot, hstep.mcCmd, hstep.cmdErr, hstep.cfg, hstep.inp, hstep.script⟩

theorem iterate_frame {d : Dir} {p : Bool} {s t : State} (h : iterate d p s = .next t) :
    EngineFrame s t := by
  obtain ⟨-, rfl⟩ | ⟨-, h⟩ := iterate_cases h
  · exact ⟨rfl, rfl, rfl, rfl, rfl, rfl, rfl⟩
  · exact transport_frame h

theorem resetEdge_frame (s : State) : EngineFrame s (resetEdge s) := by
  rw [resetEdge_eq]
  split <;> exact ⟨rfl, rfl, rfl, rfl, rfl, rfl, rfl⟩

theorem changeLength_frame (d : Dir) (s : State) : EngineFrame s (changeLength d s) := by
  obtain ⟨-, h⟩ | ⟨l, -, h⟩ := changeLength_cases d s
  all_goals rw [h]; exact ⟨rfl, rfl, rfl, rfl, rfl, rfl, rfl⟩

theorem savePattern_frame {b : Nat} {s t : State} (h : savePattern b s = .next t) :
    EngineFrame s t := by
  obtain ⟨-, rfl⟩ := savePattern_cases h
  exact ⟨rfl, rfl, rfl, rfl, rfl, rfl, rfl⟩

theorem setNextPattern_frame (b : Nat) (s : State) : EngineFrame s (setNextPattern b s) :=
  ⟨rfl, rfl, rfl, rfl, rfl, rfl, rfl⟩

/-- A command leaves the Mode Controller's fields as they are, or it is a panel event, which writes a
mode, a slot and a code and nothing else outside the engine. -/
theorem ran_frame {i : Instr} {s t : State} (h : Ran s i t) :
    EngineFrame s t ∨
      ∃ md sl e, EngineFrame (s.panel md sl (emittedCode e)) t ∧
        ((sl = s.slot ∧ (e = .load sl ∨ e = .save sl)) ∨ ∀ k, e ≠ .load k ∧ e ≠ .save k) := by
  cases h with
  | iter h => exact .inl (iterate_frame h)
  | rste => exact .inl (resetEdge_frame s)
  | chlen d => exact .inl (changeLength_frame d s)
  | save h => exact .inl (savePattern_frame h)
  | stage b => exact .inl (setNextPattern_frame b s)
  | panelStep _ _ h => exact .inr ⟨_, _, _, iterate_frame h, .inr (by simp)⟩
  | panelLength => exact .inr ⟨_, _, _, changeLength_frame _ _, .inr (by simp)⟩
  | panelLoad => exact .inr ⟨_, _, _, setNextPattern_frame _ _, .inl ⟨rfl, .inl rfl⟩⟩
  | panelSave _ h => exact .inr ⟨_, _, _, savePattern_frame h, .inl ⟨rfl, .inr rfl⟩⟩
  | panelOnly md hi hsl he =>
    refine .inr ⟨_, _, _, ⟨rfl, rfl, rfl, rfl, rfl, rfl, rfl⟩, .inr ?_⟩
    rcases he with rfl | rfl | rfl <;> simp
  | nop | fset | fclr | drunk => exact .inl ⟨rfl, rfl, rfl, rfl, rfl, rfl, rfl⟩

/-- No command writes `CMD_ERR`, the parameters, the sampled inputs or the script. -/
theorem exec_frame {i : Instr} {s t : State} (h : exec i s = .next t) :
    t.cmdErr = s.cmdErr ∧ t.cfg = s.cfg ∧ t.inp = s.inp ∧ t.script = s.script := by
  obtain hf | ⟨md, sl, e, hf, -⟩ := ran_frame (ran_of_exec h)
  all_goals exact ⟨hf.cmdErr, hf.cfg, hf.inp, hf.script⟩

/-! ### The invariants of R39 -/

theorem offset_zero_lt_len (l : LenIdx) : (offsetOf 0).natAbs < len l := by
  have := len_bounds l
  rw [offsetOf_zero]
  omega

theorem reduceBank_lt {c : Params} (h : c.Valid) (b : Nat) : (reduceBank c b).toNat < c.nBanks := by
  rw [reduceBank_toNat h]
  exact Nat.mod_lt _ (by have := h.1.1; omega)

theorem moveSlot_lt {c : Params} (h : c.Valid) (k : BitVec 4) (n : Int) :
    (moveSlot c k n).toNat < c.nBanks := by
  rw [moveSlot_toNat h]
  exact floorMod_lt _ (by have := h.1.1; omega)

theorem lawful_powerOn {c : Params} (hc : c.Valid) : Lawful (State.powerOn c) := by
  have hbank : (0#4).toNat < c.nBanks := by have := hc.1.1; simp; omega
  exact ⟨hc, offset_zero_lt_len _, hbank, hbank, hbank, powerOn_store_wf hc, fun _ => rfl⟩

section
variable {s t : State} (hs : Lawful s)
include hs

theorem slot_lt_of_lawful : s.slot.toNat < s.cfg.nBanks := by
  obtain ⟨-, -, -, -, hsl, -⟩ := hs
  exact hsl

theorem lawful_accept (x : Inputs) (rest : List Presentation) : Lawful (s.accept x rest) := hs

theorem lawful_markReserved : Lawful s.markReserved := hs

theorem lawful_panel (md : Mode) {sl : BitVec 4} (code : Byte) (hsl : sl.toNat < s.cfg.nBanks) :
    Lawful (s.panel md sl code) := by
  obtain ⟨hv, ho, hb, hn, -, hst, hrp⟩ := hs
  exact ⟨hv, ho, hb, hn, hsl, hst, hrp⟩

/-- The offset is back at 0 after a reset, one further along after a step, and 0 at a load, where
`BANK` takes the value of `NEXT`. -/
theorem lawful_transport {d : Dir} (h : transport d s = .next t) : Lawful t := by
  obtain ⟨hv, ho, hb, hn, hsl, hst, -⟩ := hs
  obtain ⟨-, rfl⟩ | ⟨hr, -, rfl⟩ | ⟨hr, -, -, e, -, rfl⟩ := transport_cases h
  · exact ⟨hv, offset_zero_lt_len _, hb, hn, hsl, hst, fun _ => rfl⟩
  · rw [transportStep_beginTransport]
    exact ⟨hv, adv_bound d ho, hb, hn, hsl, hst, fun _ => hr⟩
  · rw [transportStep_beginTransport]
    exact ⟨hv, offset_zero_lt_len _, hn, hn, hsl, hst, fun _ => hr⟩

theorem lawful_iterate {d : Dir} {p : Bool} (h : iterate d p s = .next t) : Lawful t := by
  obtain ⟨-, rfl⟩ | ⟨-, h⟩ := iterate_cases h
  · exact hs
  · exact lawful_transport hs h

theorem lawful_resetEdge : Lawful (resetEdge s) := by
  obtain ⟨hv, ho, hb, hn, hsl, hst, hrp⟩ := hs
  rw [resetEdge_eq]
  split
  next hp => exact ⟨hv, ho, hb, hn, hsl, hst, fun hi => by simp [hp] at hi⟩
  next => exact ⟨hv, offset_zero_lt_len _, hb, hn, hsl, hst, hrp⟩

theorem lawful_changeLength (d : Dir) : Lawful (changeLength d s) := by
  obtain ⟨-, h⟩ | ⟨l, -, h⟩ := changeLength_cases d s
  · rw [h]; exact hs
  · obtain ⟨hv, -, hb, hn, hsl, hst, hrp⟩ := hs
    rw [h]
    exact ⟨hv, renormOffset_bound s.ofs l, hb, hn, hsl, hst, hrp⟩

theorem lawful_savePattern {b : Nat} (h : savePattern b s = .next t) : Lawful t := by
  obtain ⟨hv, ho, hb, hn, hsl, hst, hrp⟩ := hs
  obtain ⟨-, rfl⟩ := savePattern_cases h
  exact ⟨hv, ho, hb, hn, hsl, by simpa [Memory.wf] using hst, hrp⟩

theorem lawful_setNextPattern (b : Nat) : Lawful (setNextPattern b s) := by
  obtain ⟨hv, ho, hb, -, hsl, hst, hrp⟩ := hs
  exact ⟨hv, ho, hb, reduceBank_lt hv b, hsl, hst, hrp⟩

theorem lawful_ran {i : Instr} (h : Ran s i t) : Lawful t := by
  have hslot := slot_lt_of_lawful hs
  cases h with
  | iter h => exact lawful_iterate hs h
  | rste => exact lawful_resetEdge hs
  | chlen d => exact lawful_changeLength hs d
  | save h => exact lawful_savePattern hs h
  | stage b => exact lawful_setNextPattern hs b
  | panelStep _ _ h => exact lawful_iterate (lawful_panel hs _ _ hslot) h
  | panelLength => exact lawful_changeLength (lawful_panel hs _ _ hslot) _
  | panelLoad => exact lawful_setNextPattern (lawful_panel hs _ _ hslot) _
  | panelSave _ h => exact lawful_savePattern (lawful_panel hs _ _ hslot) h
  | panelOnly md hi hsl he =>
    obtain rfl | ⟨k, rfl⟩ := hsl
    · exact lawful_panel hs _ _ hslot
    · exact lawful_panel hs _ _ (moveSlot_lt hs.1 _ k)
  | nop | fset | fclr | drunk => exact hs

theorem lawful_step (h : step s = .next t) : Lawful t := by
  obtain ⟨-, rfl⟩ | ⟨c, rest, -, ⟨r, -, rfl⟩ | ⟨i, -, h⟩⟩ := step_cases h
  · exact hs
  · exact lawful_markReserved (lawful_accept hs _ _)
  · exact lawful_ran (lawful_accept hs _ _) (ran_of_exec h)

end

/-- Settles O3: power-on is lawful, and every case of `Ran` keeps `Lawful`. -/
theorem invariantsHoldAtPowerOnAndAfterEveryStep :
    Obligations.InvariantsHoldAtPowerOnAndAfterEveryStep :=
  ⟨fun _ hc => lawful_powerOn hc, fun _ _ hs h => lawful_step hs h⟩

/-! ### The code of the last emitted command -/

theorem emittedCode_bit7 (e : Emitted) : (emittedCode e).getLsbD 7 = false := by
  simp only [emittedCode, BitVec.getLsbD_append]
  simp

theorem emittedCode_kind (e : Emitted) : (emittedCode e).extractLsb' 4 3 = emittedKind e := by
  rw [emittedCode, BitVec.extractLsb'_append_eq_of_le (by decide)]
  exact BitVec.extractLsb'_append_eq_right

theorem emittedCode_arg (e : Emitted) : (emittedCode e).extractLsb' 0 4 = emittedArg e :=
  BitVec.extractLsb'_append_eq_right

theorem emittedCode_directionHigh (e : Emitted) :
    (emittedCode e).extractLsb' 1 3 = (emittedArg e).extractLsb' 1 3 :=
  BitVec.extractLsb'_append_eq_of_add_le (by decide)

/-- R36's layout depends on the slot a load or a save names, and on nothing else. -/
theorem mcCmdLegal_emittedCode {n : Nat} {e : Emitted}
    (h : ∀ k, e = .load k ∨ e = .save k → k.toNat < n) : mcCmdLegal n (emittedCode e) := by
  unfold mcCmdLegal
  rw [emittedCode_bit7, emittedCode_kind, emittedCode_arg, emittedCode_directionHigh]
  cases e with
  | step d => cases d <;> simp [emittedKind, emittedArg, directionArg]
  | length d => cases d <;> simp [emittedKind, emittedArg, directionArg]
  | load k => simpa [emittedKind, emittedArg] using h k (.inl rfl)
  | save k => simpa [emittedKind, emittedArg] using h k (.inr rfl)
  | noCmd | changeMode | leds => simp [emittedKind, emittedArg]

theorem mcCmdLegal_ran {i : Instr} {s t : State} (hs : Lawful s)
    (hm : mcCmdLegal s.cfg.nBanks s.mcCmd) (h : Ran s i t) : mcCmdLegal t.cfg.nBanks t.mcCmd := by
  have hslot := slot_lt_of_lawful hs
  obtain hf | ⟨md, sl, e, hf, he⟩ := ran_frame h
  · rw [hf.cfg, hf.mcCmd]; exact hm
  · rw [hf.cfg, hf.mcCmd]
    refine mcCmdLegal_emittedCode fun k hk => ?_
    obtain ⟨rfl, he⟩ | he := he
    · have : k = s.slot := by
        rcases hk with rfl | rfl <;> simpa using he
      rwa [this]
    · obtain ⟨hload, hsave⟩ := he k
      exact absurd hk (not_or.mpr ⟨hload, hsave⟩)

/-- Settles O5: a step keeps `MC_CMD` or writes the code of an emitted command, whose slot is
`SLOT`. -/
theorem emittedCommandCodeKeepsItsLayout : Obligations.EmittedCommandCodeKeepsItsLayout := by
  intro s t hs hm h
  obtain ⟨-, rfl⟩ | ⟨c, rest, -, ⟨r, -, rfl⟩ | ⟨i, -, h⟩⟩ := step_cases h
  · exact hm
  · exact hm
  · exact mcCmdLegal_ran (lawful_accept hs c.inp rest) hm (ran_of_exec h)

/-! ### `CMD_ERR` and the parameters -/

theorem step_cfg {s t : State} (h : step s = .next t) : t.cfg = s.cfg := by
  obtain ⟨-, rfl⟩ | ⟨c, rest, -, ⟨r, -, rfl⟩ | ⟨i, -, h⟩⟩ := step_cases h
  · rfl
  · rfl
  · exact (exec_frame h).2.1

/-- After a step `CMD_ERR` is set if it was set before or the presented word is reserved. -/
theorem step_cmdErr_iff {s t : State} (h : step s = .next t) :
    t.cmdErr = true ↔
      s.cmdErr = true ∨ ∃ c r, s.script.head? = some c ∧ decode c.cmd = .error r := by
  obtain ⟨hs, rfl⟩ | ⟨c, rest, hs, ⟨r, hd, rfl⟩ | ⟨i, hd, h⟩⟩ := step_cases h
  · simp [hs]
  · simp [hs, hd]
  · obtain ⟨hc, -⟩ := exec_frame h
    simp [hs, hd, hc]

/-- Settles O6: only the reserved word's case of a step writes `CMD_ERR`, and no case writes the
parameters. -/
theorem commandErrorIsStickyAndParametersAreConstant :
    Obligations.CommandErrorIsStickyAndParametersAreConstant := by
  refine ⟨fun s t h => ⟨step_cfg h, fun he => (step_cmdErr_iff h).mpr (.inl he), fun he => ?_⟩,
    fun i s t h => exec_frame h⟩
  simpa [he] using step_cmdErr_iff h

/-! ### The writers of the engine's registers -/

/-- What `iterate` may write of `LIDX`, `OFS`, `NEXT` and `RP`: the length only by taking the staged
load, the offset and `RP` only in a transport step. -/
structure IterateWrites (p : Bool) (s t : State) : Prop where
  lidx : t.lidx ≠ s.lidx → s.nlp = true ∧ t.nlp = false
  ofs : t.ofs ≠ s.ofs → p = false
  next : t.next = s.next
  rp : t.rp ≠ s.rp → p = false ∧ t.rp = false

theorem transport_writes {d : Dir} {s t : State} (h : transport d s = .next t) :
    IterateWrites false s t := by
  obtain ⟨-, rfl⟩ | ⟨-, -, rfl⟩ | ⟨-, hl, -, e, -, rfl⟩ := transport_cases h
  · exact ⟨fun h => absurd rfl h, fun _ => rfl, rfl, fun _ => ⟨rfl, rfl⟩⟩
  · rw [transportStep_beginTransport]
    exact ⟨fun h => absurd rfl h, fun _ => rfl, rfl, fun h => absurd rfl h⟩
  · rw [transportStep_beginTransport]
    exact ⟨fun _ => ⟨hl, rfl⟩, fun _ => rfl, rfl, fun h => absurd rfl h⟩

theorem iterate_writes {d : Dir} {p : Bool} {s t : State} (h : iterate d p s = .next t) :
    IterateWrites p s t := by
  obtain ⟨-, rfl⟩ | ⟨rfl, h⟩ := iterate_cases h
  · exact ⟨fun h => absurd rfl h, fun h => absurd rfl h, rfl, fun h => absurd rfl h⟩
  · exact transport_writes h

/-- `changeLength` writes the length and the offset only. -/
theorem changeLength_writes (d : Dir) (s : State) :
    (changeLength d s).reg = s.reg ∧ (changeLength d s).next = s.next ∧
      (changeLength d s).rp = s.rp := by
  obtain ⟨-, h⟩ | ⟨l, -, h⟩ := changeLength_cases d s
  all_goals rw [h]; exact ⟨rfl, rfl, rfl⟩

/-- A reset edge writes the offset under IMMEDIATE only and sets `RP` under DEFERRED only. -/
theorem resetEdge_writes (s : State) :
    (resetEdge s).lidx = s.lidx ∧ (resetEdge s).next = s.next ∧
      ((resetEdge s).ofs ≠ s.ofs → s.cfg.resetPolicy = .immediate) ∧
      ((resetEdge s).rp ≠ s.rp → (resetEdge s).rp = true ∧ s.cfg.resetPolicy = .deferred) := by
  rw [resetEdge_eq]
  cases s.cfg.resetPolicy <;> simp

/-- A panel rotation in Performance that is no in-place step runs a transport ITER. -/
theorem transportDir_of_rotates {i : Instr} {d : Dir} {s : State} (hi : Rotates i d)
    (hm : s.mode = .performance) (hp : s.cfg.stepInPlace = false) : transportDir i s = some d := by
  obtain ⟨rfl, rfl⟩ | ⟨rfl, rfl⟩ := hi
  all_goals simp [transportDir, hm, hp]

theorem isRotation_of_rotates {i : Instr} {d : Dir} (hi : Rotates i d) :
    i = .evRotl ∨ i = .evRotr :=
  hi.imp And.left And.left

/-- Settles O47: each case of `Ran` writes of the five registers what its engine operation writes. -/
theorem engineRegistersHaveOnlyTheirWriters : Obligations.EngineRegistersHaveOnlyTheirWriters := by
  intro i s t h
  cases ran_of_exec h with
  | @iter d p _ h =>
    obtain ⟨hlidx, hofs, hnext, hrp⟩ := iterate_writes h
    refine ⟨fun _ => .inl ⟨d, p, rfl⟩, fun hne => .inr (.inr (hlidx hne)), fun hne => ?_,
      fun hne => absurd hnext hne, fun hne => ?_⟩
    · exact .inl ⟨d, by rw [hofs hne]⟩
    · obtain ⟨rfl, hcleared⟩ := hrp hne
      exact .inr ⟨rfl, hcleared⟩
  | rste =>
    obtain ⟨hlidx, hnext, hofs, hrp⟩ := resetEdge_writes s
    exact ⟨fun _ => .inr (.inl rfl), fun hne => absurd hlidx hne,
      fun hne => .inr (.inr (.inl ⟨rfl, hofs hne⟩)), fun hne => absurd hnext hne,
      fun hne => .inl ⟨rfl, hrp hne⟩⟩
  | chlen d =>
    obtain ⟨hreg, hnext, hrp⟩ := changeLength_writes d s
    exact ⟨fun hne => absurd hreg hne, fun _ => .inl ⟨d, rfl⟩, fun _ => .inr (.inl ⟨d, rfl⟩),
      fun hne => absurd hnext hne, fun hne => absurd hrp hne⟩
  | stage b => simp [setNextPattern]
  | panelStep hi hm h =>
    obtain ⟨hlidx, -, hnext, hrp⟩ := iterate_writes h
    have hrot := isRotation_of_rotates hi
    refine ⟨fun _ => .inr (.inr ⟨hrot, hm⟩), fun hne => .inr (.inr (hlidx hne)),
      fun _ => .inr (.inr (.inr ⟨hrot, .inl hm⟩)), fun hne => absurd hnext hne, fun hne => ?_⟩
    obtain ⟨hp, hrp⟩ := hrp hne
    exact .inr ⟨by simp [transportDir_of_rotates hi hm hp], hrp⟩
  | @panelLength _ d hi hm =>
    obtain ⟨hreg, hnext, hrp⟩ :=
      changeLength_writes d (s.panel .changeLength s.slot (emittedCode (.length d)))
    have hrot := isRotation_of_rotates hi
    exact ⟨fun hne => absurd hreg hne, fun _ => .inr (.inl ⟨hrot, hm⟩),
      fun _ => .inr (.inr (.inr ⟨hrot, .inr hm⟩)), fun hne => absurd hnext hne,
      fun hne => absurd hrp hne⟩
  | panelLoad hm => simp [setNextPattern, hm]
  | save h | panelSave _ h => obtain ⟨-, rfl⟩ := savePattern_cases h; simp
  | nop | fset | fclr | drunk | panelOnly => simp

/-! ### Who reads the inputs -/

/-- `s` with other ports and draws. -/
def State.withInp (s : State) (x : Inputs) : State := { s with inp := x }

/-- A transport step in `s` consults no input: a reset is pending or an override is armed
(40_probability.md R112; 41_shift_engine.md R136). -/
abbrev Forced (s : State) : Prop := s.rp = true ∨ s.fset = true ∨ s.fclr = true

/-- The inputs do not matter to the operation `f` in `s`. -/
abbrev IgnoresInputs (f : State → Result) (s : State) : Prop :=
  ∀ x, f (s.withInp x) = mapNext (·.withInp x) (f s)

theorem stochasticize_withInp {s : State} (h : s.fset = true ∨ s.fclr = true) (x : Inputs)
    (c : Bool) : (stochasticize (s.withInp x) c).1 = (stochasticize s c).1 := by
  unfold stochasticize State.withInp
  rcases h with h | h
  · simp [h]
  · cases s.fset <;> simp [h]

theorem transportStep_withInp {s : State} (h : s.fset = true ∨ s.fclr = true) (d : Dir)
    (x : Inputs) :
    transportStep d (s.withInp x).beginTransport =
      (transportStep d s.beginTransport).withInp x := by
  rw [transportStep_beginTransport, transportStep_beginTransport, stochasticize_withInp h]
  rfl

theorem downbeatLoad_ignoresInputs (s : State) : IgnoresInputs downbeatLoad s := by
  intro x
  have hread : storeRead (s.withInp x).store (s.withInp x).next.toNat =
    storeRead s.store s.next.toNat := rfl
  unfold downbeatLoad
  rw [hread]
  cases storeRead s.store s.next.toNat <;> rfl

theorem transport_ignoresInputs {s : State} (h : Forced s) (d : Dir) :
    IgnoresInputs (transport d) s := by
  intro x
  cases hr : s.rp with
  | true =>
    rw [transport_of_rp d hr, transport_of_rp d (s := s.withInp x) hr]
    rfl
  | false =>
    have harmed : s.fset = true ∨ s.fclr = true := by simpa [Forced, hr] using h
    rw [transport_of_not_rp d hr, transport_of_not_rp d (s := s.withInp x) hr,
      transportStep_withInp harmed d x, downbeatLoad_ignoresInputs _ x]
    change (if s.nlp = true ∧ adv s.ofs (len s.lidx) d = 0 then _ else _) = _
    split <;> rfl

theorem iterate_ignoresInputs {p : Bool} {s : State} (h : p = true ∨ Forced s) (d : Dir) :
    IgnoresInputs (iterate d p) s := by
  intro x
  cases p with
  | true => rfl
  | false => exact transport_ignoresInputs (by simpa using h) d x

theorem resetEdge_withInp (s : State) (x : Inputs) :
    resetEdge (s.withInp x) = (resetEdge s).withInp x := by
  have hcfg : (s.withInp x).cfg = s.cfg := rfl
  rw [resetEdge_eq, resetEdge_eq, hcfg]
  cases s.cfg.resetPolicy <;> rfl

theorem changeLength_withInp (d : Dir) (s : State) (x : Inputs) :
    changeLength d (s.withInp x) = (changeLength d s).withInp x := by
  have hlidx : (s.withInp x).lidx = s.lidx := rfl
  unfold changeLength
  rw [hlidx]
  cases nextLength d s.lidx <;> rfl

theorem savePattern_ignoresInputs (b : Nat) (s : State) : IgnoresInputs (savePattern b) s := by
  intro x
  have hwrite : storeWrite (s.withInp x).store (reduceBank (s.withInp x).cfg b).toNat
      (savedEntry (s.withInp x)) =
    storeWrite s.store (reduceBank s.cfg b).toNat (savedEntry s) := rfl
  simp only [savePattern, hwrite]
  cases storeWrite s.store (reduceBank s.cfg b).toNat (savedEntry s) <;> rfl

/-- Of the emitted commands only a Step that is a transport step can consult the inputs. -/
theorem runPanel_ignoresInputs {tr : Transition} {s : State}
    (h : ∀ d, tr.cmd = .step d → s.cfg.stepInPlace = true ∨ Forced s) :
    IgnoresInputs (runPanel tr) s := by
  intro x
  obtain ⟨md, sl, e⟩ := tr
  cases e with
  | step d =>
    exact iterate_ignoresInputs (s := s.panel md sl (emittedCode (.step d))) (h d rfl) d x
  | length d =>
    exact congrArg _ (changeLength_withInp d (s.panel md sl (emittedCode (.length d))) x)
  | save k => exact savePattern_ignoresInputs k.toNat (s.panel md sl (emittedCode (.save k))) x
  | load k => rfl
  | noCmd | changeMode | leds => rfl

/-- A panel rotation's Step is an in-place step where it runs no transport ITER. -/
theorem stepInPlace_or_forced {i : Instr} {d : Dir} {s : State} (hi : Rotates i d)
    (hm : s.mode = .performance) (h : transportDir i s = none ∨ Forced s) :
    s.cfg.stepInPlace = true ∨ Forced s := by
  refine h.imp_left fun hnone => ?_
  by_contra hp
  simp [transportDir_of_rotates hi hm (by simpa using hp)] at hnone

theorem onRotateLeft_step {s : State} {d : Dir} (h : (onRotateLeft s).cmd = .step d) :
    s.mode = .performance := by
  unfold onRotateLeft at h
  split at h <;> simp_all

theorem onRotateRight_step {s : State} {d : Dir} (h : (onRotateRight s).cmd = .step d) :
    s.mode = .performance := by
  unfold onRotateRight at h
  split at h <;> simp_all

theorem onClick_ne_step (s : State) (d : Dir) : (onClick s).cmd ≠ .step d := by
  unfold onClick
  split <;> simp

theorem onDoubleClick_ne_step (s : State) (d : Dir) : (onDoubleClick s).cmd ≠ .step d := by
  unfold onDoubleClick
  split <;> simp

theorem onHold_ne_step (s : State) (d : Dir) : (onHold s).cmd ≠ .step d := by
  unfold onHold
  split <;> simp

theorem exec_ignoresInputs {i : Instr} {s : State} (hi : i ≠ .drunk)
    (h : transportDir i s = none ∨ Forced s) : IgnoresInputs (exec i) s := by
  intro x
  cases i with
  | iter d p =>
    have hp : p = true ∨ Forced s := by
      cases p with
      | true => exact .inl rfl
      | false => simpa [transportDir] using h
    exact iterate_ignoresInputs hp d x
  | rste => exact congrArg _ (resetEdge_withInp s x)
  | chlen d => exact congrArg _ (changeLength_withInp d s x)
  | save b => exact savePattern_ignoresInputs b s x
  | evRotl =>
    exact runPanel_ignoresInputs (tr := onRotateLeft s)
      (fun d hd => stepInPlace_or_forced (.inl ⟨rfl, rfl⟩) (onRotateLeft_step hd) h) x
  | evRotr =>
    exact runPanel_ignoresInputs (tr := onRotateRight s)
      (fun d hd => stepInPlace_or_forced (.inr ⟨rfl, rfl⟩) (onRotateRight_step hd) h) x
  | evClick =>
    exact runPanel_ignoresInputs (tr := onClick s) (fun d hd => absurd hd (onClick_ne_step s d)) x
  | evDclick =>
    exact runPanel_ignoresInputs (tr := onDoubleClick s)
      (fun d hd => absurd hd (onDoubleClick_ne_step s d)) x
  | evHold =>
    exact runPanel_ignoresInputs (tr := onHold s) (fun d hd => absurd hd (onHold_ne_step s d)) x
  | nop | stage b | evCancel | fset | fclr => rfl
  | drunk => exact absurd rfl hi

/-- Settles O48: the bit the Probability Source returns is forced or not asked for, and no other
operation but DRUNK's reads the inputs. -/
theorem inputsMatterOnlyToTransportStepsAndDrunk :
    Obligations.InputsMatterOnlyToTransportStepsAndDrunk :=
  fun _ _ x hi h => exec_ignoresInputs hi h x

/-! ### The output ports -/

theorem visOut_getLsbD (s : State) {k : Nat} (hk : k < 8) :
    (visOut s).getLsbD k = s.reg.getLsbD k := by
  simp [visOut, hk]

theorem modeCode_injective : Function.Injective modeCode := by
  intro a b
  cases a <;> cases b <;> decide

/-- Bits 7..0 of `status`. -/
theorem statusOut_flags (s : State) :
    (statusOut s).getLsbD 0 = s.rp ∧ (statusOut s).getLsbD 1 = s.nlp ∧
      (statusOut s).getLsbD 2 = s.wr ∧ (statusOut s).getLsbD 3 = s.npl ∧
      (statusOut s).getLsbD 4 = s.fset ∧ (statusOut s).getLsbD 5 = s.fclr ∧
      (statusOut s).getLsbD 6 = s.cmdErr ∧ (statusOut s).getLsbD 7 = false := by
  simp only [statusOut, BitVec.getLsbD_append]
  simp

/-- Bits 15..8 of `status`. -/
theorem statusOut_fields (s : State) :
    (statusOut s).extractLsb' 8 2 = modeOut s ∧ (statusOut s).extractLsb' 10 2 = 0 ∧
      (statusOut s).extractLsb' 12 4 = s.slot := by
  simp (disch := decide) only [statusOut, modeOut, BitVec.extractLsb'_append_eq_of_le,
    BitVec.extractLsb'_append_eq_of_add_le]
  simp

theorem xportOut_fields (s : State) :
    (xportOut s).extractLsb' 0 16 = s.reg ∧
      (xportOut s).extractLsb' 16 4 = BitVec.ofNat 4 s.lidx.val ∧
      (xportOut s).extractLsb' 20 5 = s.ofs ∧ (xportOut s).extractLsb' 25 3 = s.didx ∧
      (xportOut s).extractLsb' 28 4 = s.bank := by
  simp (disch := decide) only [xportOut, BitVec.extractLsb'_append_eq_of_le,
    BitVec.extractLsb'_append_eq_of_add_le]
  simp

theorem xport2Out_fields (s : State) :
    (xport2Out s).extractLsb' 0 4 = s.next ∧ (xport2Out s).extractLsb' 4 8 = s.mcCmd ∧
      (xport2Out s).extractLsb' 12 4 = BitVec.ofNat 4 (len s.lidx - 1) := by
  simp (disch := decide) only [xport2Out, BitVec.extractLsb'_append_eq_of_le,
    BitVec.extractLsb'_append_eq_of_add_le]
  simp

/-- The four bits of `xport` that show `LIDX` hold its value. -/
theorem lidx_toNat (l : LenIdx) : (BitVec.ofNat 4 l.val).toNat = l.val := by
  have := l.isLt
  rw [BitVec.toNat_ofNat]
  omega

/-- The four bits of `xport2` that show `L - 1` hold its value. -/
theorem len_toNat (l : LenIdx) : (BitVec.ofNat 4 (len l - 1)).toNat = len l - 1 := by
  have := len_bounds l
  rw [BitVec.toNat_ofNat]
  omega

/-- Settles O49: the fields of each port, read off the concatenation that defines it. -/
theorem outputPortsShowTheState : Obligations.OutputPortsShowTheState := by
  intro s
  obtain ⟨h0, h1, h2, h3, h4, h5, h6, h7⟩ := statusOut_flags s
  obtain ⟨hreg, hlidx, hofs, hdidx, hbank⟩ := xportOut_fields s
  obtain ⟨hnext, hcmd, hlen⟩ := xport2Out_fields s
  refine ⟨fun k hk => visOut_getLsbD s hk, rfl, ?_, rfl, ?_, rfl,
    ⟨h0, h1, h2, h3, h4, h5, h6, h7, statusOut_fields s⟩,
    ⟨hreg, by rw [hlidx, lidx_toNat], hofs, hdidx, hbank⟩, hnext, hcmd, by rw [hlen, len_toNat]⟩
  · unfold modeOut; cases s.mode <;> rfl
  · unfold modeIndOut; cases s.mode <;> rfl

/-- The registers `status` shows. -/
theorem eq_of_statusOut_eq {s t : State} (h : statusOut s = statusOut t) :
    t.rp = s.rp ∧ t.nlp = s.nlp ∧ t.wr = s.wr ∧ t.npl = s.npl ∧ t.fset = s.fset ∧
      t.fclr = s.fclr ∧ t.cmdErr = s.cmdErr ∧ t.mode = s.mode ∧ t.slot = s.slot := by
  obtain ⟨s0, s1, s2, s3, s4, s5, s6, -⟩ := statusOut_flags s
  obtain ⟨t0, t1, t2, t3, t4, t5, t6, -⟩ := statusOut_flags t
  obtain ⟨sm, -, ss⟩ := statusOut_fields s
  obtain ⟨tm, -, ts⟩ := statusOut_fields t
  rw [h] at s0 s1 s2 s3 s4 s5 s6 sm ss
  exact ⟨t0.symm.trans s0, t1.symm.trans s1, t2.symm.trans s2, t3.symm.trans s3,
    t4.symm.trans s4, t5.symm.trans s5, t6.symm.trans s6,
    modeCode_injective (tm.symm.trans sm), ts.symm.trans ss⟩

/-- The registers `xport` shows. -/
theorem eq_of_xportOut_eq {s t : State} (h : xportOut s = xportOut t) :
    t.reg = s.reg ∧ t.lidx = s.lidx ∧ t.ofs = s.ofs ∧ t.didx = s.didx ∧ t.bank = s.bank := by
  obtain ⟨sr, sl, so, sd, sb⟩ := xportOut_fields s
  obtain ⟨tr, tl, tof, td, tb⟩ := xportOut_fields t
  rw [h] at sr sl so sd sb
  have hl : t.lidx.val = s.lidx.val := by rw [← lidx_toNat, ← tl, sl, lidx_toNat]
  exact ⟨tr.symm.trans sr, Fin.ext hl, tof.symm.trans so, td.symm.trans sd, tb.symm.trans sb⟩

/-- The registers `xport2` shows beside the length. -/
theorem eq_of_xport2Out_eq {s t : State} (h : xport2Out s = xport2Out t) :
    t.next = s.next ∧ t.mcCmd = s.mcCmd := by
  obtain ⟨sn, sc, -⟩ := xport2Out_fields s
  obtain ⟨tn, tc, -⟩ := xport2Out_fields t
  rw [h] at sn sc
  exact ⟨tn.symm.trans sn, tc.symm.trans sc⟩

/-- Settles O50: every register is a field of one of the three ports. -/
theorem observationPortsDetermineEveryRegister :
    Obligations.ObservationPortsDetermineEveryRegister := by
  intro s t hstatus hxport hxport2
  obtain ⟨hrp, hnlp, hwr, hnpl, hfset, hfclr, herr, hmode, hslot⟩ := eq_of_statusOut_eq hstatus
  obtain ⟨hreg, hlidx, hofs, hdidx, hbank⟩ := eq_of_xportOut_eq hxport
  obtain ⟨hnext, hcmd⟩ := eq_of_xport2Out_eq hxport2
  rw [← hrp, ← hnlp, ← hwr, ← hnpl, ← hfset, ← hfclr, ← herr, ← hmode, ← hslot, ← hreg, ← hlidx,
    ← hofs, ← hdidx, ← hbank, ← hnext, ← hcmd]

/-! ### Power-on and reset -/

theorem storeRead_powerOn {c : Params} {b : Nat} (hb : b < c.initPattern.length) :
    storeRead (State.powerOn c).store b = some ⟨c.initPattern.getD b 0, c.initLidx⟩ := by
  simp [storeRead, State.powerOn, hb]

theorem powerOn_reg (c : Params) : (State.powerOn c).reg = c.initPattern.getD 0 0 := by
  cases h : c.initPattern <;> simp [State.powerOn, h]

/-- Settles O1: the store and the register by the two lemmas above, the rest by definition. -/
theorem powerOnHoldsTheSpecifiedValues : Obligations.PowerOnHoldsTheSpecifiedValues := by
  refine ⟨fun c hc => ?_, rfl, rfl⟩
  have ⟨_, _, _, _, _, hlen, _⟩ := hc
  exact ⟨powerOn_store_wf hc, fun b hb => storeRead_powerOn (hlen ▸ hb), powerOn_reg c,
    rfl, rfl, rfl, rfl, rfl, rfl, rfl, rfl, rfl, rfl, rfl, rfl, rfl, rfl, rfl⟩

/-- The opaque parts are put together so that the bounds of R7 hold, and a permutation keeps the eight
bank numbers apart. -/
theorem board_valid : Config.board.Valid := by
  have hbands : Config.board.pHigh < Config.fs ∧ 2 ≤ Config.fs := by
    simp only [Config.board, Config.fs]; omega
  refine ⟨by decide, hbands.2, ⟨Nat.succ_pos _, Nat.le_add_right _ _⟩, hbands.1,
    Nat.mod_lt _ (by omega), rfl, ?_⟩
  exact List.Nodup.map Config.initPattern.injective (by decide)

/-- Settles O2: the board meets R7, so its power-on state is lawful, and `MC_CMD` is NoCmd's code. -/
theorem resetIsLawful : Obligations.ResetIsLawful :=
  ⟨board_valid, lawful_powerOn board_valid,
    mcCmdLegal_emittedCode (e := .noCmd) fun _ hk => by simp at hk⟩

/-! ### The step -/

/-- Settles O13: the decoding branch of the step. -/
theorem stepRunsThePresentedCommand : Obligations.StepRunsThePresentedCommand :=
  fun _ _ _ _ hs hd => step_ok hs hd

end Sys2Proof.Machine


/-! # Proofs about the memory: who writes the pattern store, and the bytes of a command word -/

namespace Sys2Proof.Machine

/-! ### The operations that keep the store -/

theorem transport_store {d : Dir} {s t : State} (h : transport d s = .next t) :
    t.store = s.store := by
  have hstep : (transportStep d s.beginTransport).store = s.store := by
    rw [transportStep_beginTransport]
  obtain ⟨-, rfl⟩ | ⟨-, -, rfl⟩ | ⟨-, -, -, e, -, rfl⟩ := transport_cases h
  · rfl
  · exact hstep
  · exact hstep

theorem iterate_store {d : Dir} {p : Bool} {s t : State} (h : iterate d p s = .next t) :
    t.store = s.store := by
  obtain ⟨-, rfl⟩ | ⟨-, h⟩ := iterate_cases h
  · rfl
  · exact transport_store h

@[simp] theorem resetEdge_store (s : State) : (resetEdge s).store = s.store := by
  rw [resetEdge_eq]
  split <;> rfl

@[simp] theorem changeLength_store (d : Dir) (s : State) :
    (changeLength d s).store = s.store := by
  obtain ⟨-, h⟩ | ⟨l, -, h⟩ := changeLength_cases d s
  all_goals rw [h]

@[simp] theorem setNextPattern_store (b : Nat) (s : State) :
    (setNextPattern b s).store = s.store := rfl

/-! ### The one operation that writes it -/

/-- A save that completes finds its reduced bank in the store and leaves the others as they were
(20_memory.md R62, R64). -/
theorem savePattern_writes_one_bank {b : Nat} {s t : State} (h : savePattern b s = .next t) :
    (reduceBank s.cfg b).toNat < s.store.length ∧
      ∀ a, a ≠ (reduceBank s.cfg b).toNat → storeRead t.store a = storeRead s.store a := by
  obtain ⟨hb, rfl⟩ := savePattern_cases h
  exact ⟨hb, fun _ ha => storeRead_set_other s.store (savedEntry s) ha⟩

/-- A Hold in PatternSave is a save into the slot (44_mode_controller.md R214, R220). -/
theorem exec_evHold_of_patternSave {s : State} (hm : s.mode = .patternSave) :
    exec .evHold s =
      savePattern s.slot.toNat (s.panel .performance s.slot (emittedCode (.save s.slot))) := by
  have htr : onHold s = ⟨.performance, s.slot, .save s.slot⟩ := by simp only [onHold, hm]
  change runPanel (onHold s) s = _
  rw [htr]
  rfl

/-- A command that saves nothing keeps the store: of the cases of `Ran` only the two saves write
it. -/
theorem ran_store {i : Instr} {s t : State} (h : Ran s i t) :
    t.store = s.store ∨ (∃ b, i = .save b) ∨ (i = .evHold ∧ s.mode = .patternSave) := by
  cases h with
  | @save b _ _ => exact .inr (.inl ⟨b, rfl⟩)
  | panelSave hm _ => exact .inr (.inr ⟨rfl, hm⟩)
  | iter h => exact .inl (iterate_store h)
  | panelStep _ _ h => exact .inl (iterate_store h :)
  | rste => exact .inl (resetEdge_store s)
  | chlen d => exact .inl (changeLength_store d s)
  | panelLength => exact .inl (changeLength_store _ _)
  | nop | stage | panelLoad | fset | fclr | drunk | panelOnly => exact .inl rfl

/-- Settles O41: by the cases of `Ran` only the two saves write the store, and each is one
`savePattern`. -/
theorem storeIsWrittenOnlyBySaves : Obligations.StoreIsWrittenOnlyBySaves := by
  refine ⟨fun i s t h hne => (ran_store (ran_of_exec h)).resolve_left hne,
    fun b s t h => savePattern_writes_one_bank h, fun s t hm h => ?_, fun s hs => ?_⟩
  · have hsave := (exec_evHold_of_patternSave hm).symm.trans h
    exact (savePattern_writes_one_bank hsave :)
  · rw [reduceBank_of_lt hs.1 (slot_lt_of_lawful hs)]

/-! ### The bytes of a command word -/

/-- The high byte before the low byte is the word. -/
theorem highByte_append_lowByte (w : Word) : w.extractLsb' 8 8 ++ w.extractLsb' 0 8 = w :=
  calc w.extractLsb' 8 8 ++ w.extractLsb' 0 8
      = w.extractLsb' 0 (8 + 8) := BitVec.extractLsb'_append_extractLsb'_eq_extractLsb' rfl
    _ = w := BitVec.extractLsb'_eq_self

/-- Settles O52: either order joins the high byte before the low byte. -/
theorem commandWordOfItsBytes : Obligations.CommandWordOfItsBytes := by
  intro o w
  cases o with
  | big => exact highByte_append_lowByte w
  | little => exact highByte_append_lowByte w

end Sys2Proof.Machine


/-! # Proofs about the encoding: the decoder and its rows, the round trips, the reserved words -/

namespace Sys2Proof

/-! ### The rows of the opcode map -/

/-- No word matches both rows (30_encoding.md R83). -/
abbrev RowsDisjoint (r q : OpRow) : Prop := ∀ w : Word, ¬ (r.accepts w = true ∧ q.accepts w = true)

/-- Two rows whose patterns differ on a bit both masks read have no word in common. -/
theorem rowsDisjoint_of_pat_ne {r q : OpRow} (h : r.pat &&& q.mask ≠ q.pat &&& r.mask) :
    RowsDisjoint r q := by
  rintro w ⟨hr, hq⟩
  rw [OpRow.accepts, beq_iff_eq] at hr hq
  exact h (by rw [← hr, ← hq, BitVec.and_assoc, BitVec.and_assoc, BitVec.and_comm r.mask])

theorem opRows_pairwise_disjoint : opRows.Pairwise RowsDisjoint := by
  have hbits : opRows.Pairwise fun r q => r.pat &&& q.mask ≠ q.pat &&& r.mask := by decide
  exact hbits.imp rowsDisjoint_of_pat_ne

theorem row_eq_of_accepts {r q : OpRow} (hr : r ∈ opRows) (hq : q ∈ opRows) {w : Word}
    (hrw : r.accepts w = true) (hqw : q.accepts w = true) : r = q := by
  have hsymm : Std.Symm RowsDisjoint := ⟨fun _ _ h w hb => h w hb.symm⟩
  by_contra hne
  exact opRows_pairwise_disjoint.forall hr hq hne w ⟨hrw, hqw⟩

/-- The decoder reads the operands by the one row that matches. -/
theorem decode_eq_ok_iff {w : Word} {i : Instr} :
    decode w = .ok i ↔ ∃ r ∈ opRows, r.accepts w = true ∧ r.build w = i := by
  unfold decode
  cases hf : opRows.find? fun r => r.accepts w with
  | none =>
    have hnone := List.find?_eq_none.mp hf
    simp only [reduceCtorEq, false_iff]
    exact fun ⟨r, hr, hw, _⟩ => hnone r hr hw
  | some q =>
    have hq := List.mem_of_find?_eq_some hf
    have hqw : q.accepts w = true := List.find?_some (p := fun r : OpRow => r.accepts w) hf
    simp only [Except.ok.injEq]
    constructor
    · exact fun h => ⟨q, hq, hqw, h⟩
    · rintro ⟨r, hr, hrw, hb⟩
      rwa [row_eq_of_accepts hq hr hqw hrw]

theorem decode_eq_error_iff {w : Word} :
    (∃ e, decode w = .error e) ↔ ∀ r ∈ opRows, ¬ r.accepts w = true := by
  rw [← List.find?_eq_none]
  unfold decode
  cases opRows.find? fun r => r.accepts w <;> simp

/-! ### A word cut into its opcode, the bits its row fixes and its field -/

theorem append_eq_iff_halves {n k : Nat} {a c : BitVec n} {b d : BitVec k} :
    a ++ b = c ++ d ↔ a = c ∧ b = d := by
  constructor
  · intro h
    have hhigh := congrArg (BitVec.extractLsb' k n) h
    have hlow := congrArg (BitVec.extractLsb' 0 k) h
    simp only [BitVec.extractLsb'_append_eq_left, BitVec.extractLsb'_append_eq_right] at hhigh hlow
    exact ⟨hhigh, hlow⟩
  · rintro ⟨rfl, rfl⟩
    rfl

section
variable {n k : Nat} (w : BitVec (4 + n + k))

theorem word_eq_parts :
    w = w.extractLsb' (n + k) 4 ++ w.extractLsb' k n ++ w.extractLsb' 0 k := by
  rw [BitVec.extractLsb'_append_extractLsb'_eq_extractLsb' (by omega),
    BitVec.extractLsb'_append_extractLsb'_eq_extractLsb' (by omega)]
  exact BitVec.extractLsb'_eq_self.symm

/-- A mask that reads every bit above the field compares the opcode and the fixed bits. -/
theorem and_mask_eq_iff {p : BitVec (4 + n + k)} (hp : p.extractLsb' 0 k = 0#k) :
    w &&& (BitVec.allOnes 4 ++ BitVec.allOnes n ++ 0#k) = p ↔
      w.extractLsb' (n + k) 4 = p.extractLsb' (n + k) 4 ∧ w.extractLsb' k n = p.extractLsb' k n := by
  conv_lhs => rw [word_eq_parts w, word_eq_parts p, hp]
  simp only [BitVec.and_append, append_eq_iff_halves, BitVec.and_allOnes, BitVec.and_zero, and_true]

end

section
variable {mn : String} {p : Word} {b : Word → Instr} {w : Word}

theorem accepts_noField :
    (OpRow.mk mn p 0xFFFF b).accepts w = true ↔
      w.extractLsb' 12 4 = p.extractLsb' 12 4 ∧ w.extractLsb' 0 12 = p.extractLsb' 0 12 :=
  beq_iff_eq.trans (and_mask_eq_iff (n := 12) (k := 0) w BitVec.of_length_zero)

theorem accepts_oneBitField (hp : p.extractLsb' 0 1 = 0#1) :
    (OpRow.mk mn p 0xFFFE b).accepts w = true ↔
      w.extractLsb' 12 4 = p.extractLsb' 12 4 ∧ w.extractLsb' 1 11 = p.extractLsb' 1 11 :=
  beq_iff_eq.trans (and_mask_eq_iff (n := 11) (k := 1) w hp)

theorem accepts_twoBitField (hp : p.extractLsb' 0 2 = 0#2) :
    (OpRow.mk mn p 0xFFFC b).accepts w = true ↔
      w.extractLsb' 12 4 = p.extractLsb' 12 4 ∧ w.extractLsb' 2 10 = p.extractLsb' 2 10 :=
  beq_iff_eq.trans (and_mask_eq_iff (n := 10) (k := 2) w hp)

theorem accepts_fourBitField (hp : p.extractLsb' 0 4 = 0#4) :
    (OpRow.mk mn p 0xFFF0 b).accepts w = true ↔
      w.extractLsb' 12 4 = p.extractLsb' 12 4 ∧ w.extractLsb' 4 8 = p.extractLsb' 4 8 :=
  beq_iff_eq.trans (and_mask_eq_iff (n := 8) (k := 4) w hp)

end

/-! ### Decode and encode agree -/

/-- Format `I` with its two bits as one field (30_encoding.md R81). -/
theorem formatI_eq_append (i : Bool) (d : Dir) :
    formatI i d = 1#4 ++ 0#10 ++ (BitVec.ofBool i ++ BitVec.ofBool d.bit) := by
  cases i <;> cases d <;> rfl

theorem dir_bit_ofBit (b : Bool) : (Dir.ofBit b).bit = b := by cases b <;> rfl

theorem fieldB_formatB (op : BitVec 4) {b : Nat} (hb : b < 16) : fieldB (formatB op b) = b := by
  rw [fieldB, formatB, BitVec.extractLsb'_append_eq_right, BitVec.toNat_ofNat]
  exact Nat.mod_eq_of_lt hb

theorem decode_formatB {r : OpRow} (hr : r ∈ opRows) {op : BitVec 4} (hm : r.mask = 0xFFF0)
    (hp : r.pat = op ++ 0#12) (b : Nat) : decode (formatB op b) = .ok (r.build (formatB op b)) := by
  refine decode_eq_ok_iff.mpr ⟨r, hr, beq_iff_eq.mpr ?_, rfl⟩
  rw [hm, hp]
  exact formatB_masked op b

/-- Settles O7: a bank number comes back from its field, and the other commands are finitely many
words, each read by its row. -/
theorem decodeOfEncodeIsTheCommand : Obligations.DecodeOfEncodeIsTheCommand := by
  intro i hi
  cases i with
  | save b =>
    have hb := fieldB_formatB 4 (of_decide_eq_true hi)
    exact (decode_formatB (r := opRows[4]) (List.getElem_mem _) rfl rfl b).trans
      (congrArg (fun n => Except.ok (Instr.save n)) hb)
  | stage b =>
    have hb := fieldB_formatB 5 (of_decide_eq_true hi)
    exact (decode_formatB (r := opRows[5]) (List.getElem_mem _) rfl rfl b).trans
      (congrArg (fun n => Except.ok (Instr.stage n)) hb)
  | iter d p => cases d <;> cases p <;> rfl
  | chlen d => cases d <;> rfl
  | nop | rste | evRotl | evRotr | evClick | evDclick | evHold | evCancel | fset | fclr | drunk =>
    rfl

/-- Every word the row accepts is the word of the command the row reads from it. -/
def OpRow.Sound (r : OpRow) : Prop :=
  ∀ w, r.accepts w = true → (r.build w).WellFormed ∧ encode (r.build w) = w

theorem sound_noField {mn : String} {p : Word} {i : Instr} (hi : i.WellFormed) (he : encode i = p) :
    (OpRow.mk mn p 0xFFFF fun _ => i).Sound := by
  intro w h
  rw [OpRow.accepts, beq_iff_eq] at h
  have hw : w = p := BitVec.and_allOnes.symm.trans h
  exact ⟨hi, he.trans hw.symm⟩

theorem extractLsb'_zero_one (w : Word) : w.extractLsb' 0 1 = BitVec.ofBool (w.getLsbD 0) := by
  ext i hi
  simp [Nat.lt_one_iff.mp hi]

theorem extractLsb'_zero_two (w : Word) :
    w.extractLsb' 0 2 = BitVec.ofBool (w.getLsbD 1) ++ BitVec.ofBool (w.getLsbD 0) := by
  have hbits : ∀ x : BitVec 2, x = BitVec.ofBool (x.getLsbD 1) ++ BitVec.ofBool (x.getLsbD 0) := by
    decide
  simpa using! hbits (w.extractLsb' 0 2)

theorem sound_iter {mn : String} :
    (OpRow.mk mn 0x1000 0xFFFC fun w => .iter (fieldD w) (fieldI w)).Sound := by
  intro w h
  obtain ⟨hop, hfix⟩ := (accepts_twoBitField rfl).mp h
  refine ⟨rfl, ?_⟩
  calc formatI (fieldI w) (fieldD w)
      = 1#4 ++ 0#10 ++ (BitVec.ofBool (w.getLsbD 1) ++ BitVec.ofBool (w.getLsbD 0)) := by
        rw [formatI_eq_append, fieldD, dir_bit_ofBit, fieldI]
    _ = w.extractLsb' 12 4 ++ w.extractLsb' 2 10 ++ w.extractLsb' 0 2 := by
        rw [hop, hfix, extractLsb'_zero_two]; rfl
    _ = w := (word_eq_parts (n := 10) (k := 2) w).symm

theorem sound_chlen {mn : String} :
    (OpRow.mk mn 0x3000 0xFFFE fun w => .chlen (fieldD w)).Sound := by
  intro w h
  obtain ⟨hop, hfix⟩ := (accepts_oneBitField rfl).mp h
  refine ⟨rfl, ?_⟩
  calc formatD (fieldD w)
      = 3#4 ++ 0#11 ++ BitVec.ofBool (w.getLsbD 0) := by rw [formatD, fieldD, dir_bit_ofBit]
    _ = w.extractLsb' 12 4 ++ w.extractLsb' 1 11 ++ w.extractLsb' 0 1 := by
        rw [hop, hfix, extractLsb'_zero_one]; rfl
    _ = w := (word_eq_parts (n := 11) (k := 1) w).symm

theorem fieldB_lt (w : Word) : fieldB w < 16 := (w.extractLsb' 0 4).isLt

theorem formatB_fieldB {w : Word} {op : BitVec 4} (hop : w.extractLsb' 12 4 = op)
    (hfix : w.extractLsb' 4 8 = 0#8) : formatB op (fieldB w) = w :=
  calc formatB op (fieldB w)
      = w.extractLsb' 12 4 ++ w.extractLsb' 4 8 ++ w.extractLsb' 0 4 := by
        rw [formatB, fieldB, BitVec.ofNat_toNat, BitVec.setWidth_eq, hop, hfix]
    _ = w := (word_eq_parts (n := 8) (k := 4) w).symm

theorem sound_bank {mn : String} {p : Word} {c : Nat → Instr} (hfield : p.extractLsb' 0 4 = 0)
    (hfix : p.extractLsb' 4 8 = 0) (hwf : ∀ b, b < 16 → (c b).WellFormed)
    (he : ∀ b, encode (c b) = formatB (p.extractLsb' 12 4) b) :
    (OpRow.mk mn p 0xFFF0 fun w => c (fieldB w)).Sound := by
  intro w h
  obtain ⟨hop, hw⟩ := (accepts_fourBitField hfield).mp h
  exact ⟨hwf _ (fieldB_lt w), (he _).trans (formatB_fieldB hop (hw.trans hfix))⟩

theorem opRows_sound : ∀ r ∈ opRows, r.Sound := by
  simp only [opRows, List.forall_mem_cons]
  refine ⟨sound_noField rfl rfl, sound_iter, sound_noField rfl rfl, sound_chlen,
    sound_bank rfl rfl (fun _ => decide_eq_true) fun _ => rfl,
    sound_bank rfl rfl (fun _ => decide_eq_true) fun _ => rfl, ?_⟩
  iterate 9 refine ⟨sound_noField rfl rfl, ?_⟩
  exact List.forall_mem_nil _

/-- Settles O8: the row that matches is sound: its pattern and the field give the whole word. -/
theorem decodedWordIsTheCommandsWord : Obligations.DecodedWordIsTheCommandsWord := by
  intro w i h
  obtain ⟨r, hr, hw, rfl⟩ := decode_eq_ok_iff.mp h
  exact opRows_sound r hr w hw

/-! ### The valid words -/

/-- The table of commands holds each command that has a word. -/
theorem mem_allCommands_iff {i : Instr} : i ∈ allCommands ↔ i.WellFormed := by
  constructor
  · exact fun h => (by decide : ∀ j ∈ allCommands, j.WellFormed) i h
  · intro h
    cases i with
    | iter d p => cases d <;> cases p <;> decide
    | chlen d => cases d <;> decide
    | save b => simp [allCommands, of_decide_eq_true h]
    | stage b => simp [allCommands, of_decide_eq_true h]
    | nop | rste | evRotl | evRotr | evClick | evDclick | evHold | evCancel | fset | fclr
    | drunk => decide

theorem encode_injective {i j : Instr} (hi : i.WellFormed) (hj : j.WellFormed)
    (h : encode i = encode j) : i = j := by
  have hd := decodeOfEncodeIsTheCommand i hi
  rw [h, decodeOfEncodeIsTheCommand j hj] at hd
  exact (Except.ok.inj hd).symm

theorem mem_encode_allCommands_iff {w : Word} :
    w ∈ allCommands.map encode ↔ ∃ i, decode w = .ok i := by
  simp only [List.mem_map, mem_allCommands_iff]
  constructor
  · rintro ⟨i, hi, rfl⟩
    exact ⟨i, decodeOfEncodeIsTheCommand i hi⟩
  · rintro ⟨i, h⟩
    exact ⟨i, decodedWordIsTheCommandsWord w i h⟩

/-- Settles O9: the valid words are the words of the 49 commands, which encoding keeps apart. -/
theorem opcodeRowsAreDisjointAndFortyNineWordsAreValid :
    Obligations.OpcodeRowsAreDisjointAndFortyNineWordsAreValid := by
  have hnodup : (allCommands.map encode).Nodup :=
    List.Nodup.map_on (fun _ hi _ hj => encode_injective (mem_allCommands_iff.mp hi)
      (mem_allCommands_iff.mp hj)) (by decide)
  exact ⟨opRows_pairwise_disjoint, _, hnodup, rfl, fun _ => mem_encode_allCommands_iff⟩

/-- Settles O11: each is the word of its command, so the round trip O7 decodes it. -/
theorem writtenOutWordsDecode : Obligations.WrittenOutWordsDecode :=
  have h := decodeOfEncodeIsTheCommand
  ⟨h .nop rfl, h (.iter .fwd false) rfl, h (.iter .bwd false) rfl, h (.iter .fwd true) rfl,
    h .rste rfl, h (.chlen .bwd) rfl, h (.save 11) rfl, h (.stage 6) rfl, h .evDclick rfl,
    h .fclr rfl, h .drunk rfl⟩

/-! ### Assembly lines -/

theorem toAsm_mnemonic {i : Instr} {l : AsmLine} (h : i.toAsm = some l) :
    l.mnemonic = i.mnemonic := by
  obtain ⟨ops, -, rfl⟩ := Option.map_eq_some_iff.mp h
  rfl

/-- Every bank number the field can hold has a name. -/
theorem exists_toAsm_of_wellFormed {i : Instr} (h : i.WellFormed) : ∃ l, i.toAsm = some l := by
  cases i with
  | save b | stage b =>
    have hb : b < bankNames.length := of_decide_eq_true h
    exact ⟨_, by simp only [Instr.toAsm, Instr.asmOperands, List.getElem?_eq_getElem hb]; rfl⟩
  | nop | iter | rste | chlen | evRotl | evRotr | evClick | evDclick | evHold | evCancel | fset
  | fclr | drunk => exact ⟨_, rfl⟩

theorem pseudo_mnemonic_ne (i : Instr) : ∀ r ∈ pseudoRows, r.1.mnemonic ≠ i.mnemonic := by
  cases i <;> simp [pseudoRows, Instr.mnemonic]

theorem toAsm_injective {i j : Instr} (hi : i.WellFormed) (hj : j.WellFormed)
    (h : i.toAsm = j.toAsm) : i = j :=
  have hnodup : (allCommands.map Instr.toAsm).Nodup := by decide
  List.inj_on_of_nodup_map hnodup (mem_allCommands_iff.mpr hi) (mem_allCommands_iff.mpr hj) h

/-- No pseudo-instruction takes a command's line, and no other command has it. -/
theorem assemble_toAsm {i : Instr} {l : AsmLine} (hi : i.WellFormed) (hl : i.toAsm = some l) :
    assemble l = some i := by
  have hpseudo : pseudoRows.find? (fun r => r.1 = l) = none := by
    refine List.find?_eq_none.mpr fun r hr hrl => pseudo_mnemonic_ne i r hr ?_
    rw [of_decide_eq_true hrl, toAsm_mnemonic hl]
  have hfound : (allCommands.find? fun j => j.toAsm = some l).isSome :=
    List.find?_isSome.mpr ⟨i, mem_allCommands_iff.mpr hi, decide_eq_true hl⟩
  obtain ⟨j, hj⟩ := Option.isSome_iff_exists.mp hfound
  have hjl : j.toAsm = some l := of_decide_eq_true (List.find?_some hj :)
  have hji : j = i := toAsm_injective (mem_allCommands_iff.mp (List.mem_of_find?_eq_some hj)) hi
    (hjl.trans hl.symm)
  rw [assemble, hpseudo, ← hji]
  exact hj

/-- Settles O12: a command's line belongs to it alone; the pseudo-instructions are six fixed lines. -/
theorem assemblyRoundTrip : Obligations.AssemblyRoundTrip := by
  refine ⟨fun i hi => ?_, rfl, rfl, rfl, rfl, rfl, rfl⟩
  obtain ⟨l, hl⟩ := exists_toAsm_of_wellFormed hi
  exact ⟨l, hl, assemble_toAsm hi hl⟩

end Sys2Proof

namespace Sys2Proof.Machine

/-! ### A state that only NOP leaves unchanged -/

theorem runPanel_mcCmd {tr : Transition} {s t : State} (h : runPanel tr s = .next t) :
    t.mcCmd = emittedCode tr.cmd := by
  obtain ⟨d, -, h⟩ | ⟨d, -, rfl⟩ | ⟨k, -, rfl⟩ | ⟨k, -, h⟩ | ⟨-, rfl⟩ :=
    dispatch_cases (runPanel_cases h)
  · exact (iterate_frame h).mcCmd
  · exact (changeLength_frame d _).mcCmd
  · exact (setNextPattern_frame k.toNat _).mcCmd
  · exact (savePattern_frame h).mcCmd
  · rfl

theorem walkIndex_ne (i : BitVec 3) (x : Inputs) : walkIndex i x ≠ i := by
  unfold walkIndex
  generalize x.s = sg
  generalize x.m = mg
  revert i
  cases sg <;> cases mg <;> decide

/-- A lawful state that every command but NOP changes: `NPL` is set with no load staged, `MC_CMD` has
bit 7, which no emitted command's code has, and every stored length differs from `LIDX`. -/
def restless : State :=
  { State.reset with
    reg := 1, npl := true, mcCmd := 0x80, store := List.replicate Config.board.nBanks ⟨0, 0⟩ }

theorem restless_lawful : Lawful restless := by
  obtain ⟨hv, ho, hb, hn, hs, -, hrp⟩ := resetIsLawful.2.1
  exact ⟨hv, ho, hb, hn, hs, List.length_replicate, hrp⟩

/-- With no reset pending and no load staged a transport ITER clears `NPL`. -/
theorem transport_restless_ne (d : Dir) : transport d restless ≠ .next restless := by
  intro h
  obtain ⟨hrp, -⟩ | ⟨-, -, ht⟩ | ⟨-, hnlp, -⟩ := transport_cases h
  · cases hrp
  · rw [transportStep_beginTransport] at ht
    cases congrArg State.npl ht
  · cases hnlp

theorem iterateInPlace_restless_ne (d : Dir) : iterateInPlace d restless ≠ restless := by
  intro h
  cases d <;> cases congrArg State.reg h

/-- A save writes an entry of another length than the store's entries have. -/
theorem savePattern_restless_ne (b : Nat) : savePattern b restless ≠ .next restless := by
  intro h
  obtain ⟨hb, ht⟩ := savePattern_cases h
  have hstore : restless.store =
      restless.store.set (reduceBank restless.cfg b).toNat (savedEntry restless) :=
    congrArg State.store ht
  have hnew := storeRead_set_same (savedEntry restless) hb
  rw [← hstore] at hnew
  have hold : savedEntry restless = ⟨0, 0⟩ := List.eq_of_mem_replicate (List.mem_of_getElem? hnew)
  cases congrArg Entry.lidx hold

theorem runPanel_restless_ne (tr : Transition) : runPanel tr restless ≠ .next restless := by
  intro h
  have hbit := emittedCode_bit7 tr.cmd
  rw [← runPanel_mcCmd h] at hbit
  cases hbit

theorem eq_nop_of_exec_restless {i : Instr} (h : exec i restless = .next restless) : i = .nop := by
  have hnext {t : State} (ht : Host.Outcome.next t = (.next restless : Result)) : t = restless :=
    Host.Outcome.next.inj ht
  cases i with
  | nop => rfl
  | iter d p =>
    obtain ⟨-, ht⟩ | ⟨-, ht⟩ := iterate_cases h
    · exact absurd ht.symm (iterateInPlace_restless_ne d)
    · exact absurd ht (transport_restless_ne d)
  | rste => cases congrArg State.rp (hnext h)
  | chlen d => cases d <;> cases congrArg State.lidx (hnext h)
  | save b => exact absurd h (savePattern_restless_ne b)
  | stage b => cases congrArg State.nlp (hnext h)
  | evRotl => exact absurd h (runPanel_restless_ne (onRotateLeft restless))
  | evRotr => exact absurd h (runPanel_restless_ne (onRotateRight restless))
  | evClick => exact absurd h (runPanel_restless_ne (onClick restless))
  | evDclick => exact absurd h (runPanel_restless_ne (onDoubleClick restless))
  | evHold => exact absurd h (runPanel_restless_ne (onHold restless))
  | evCancel => exact absurd h (runPanel_restless_ne (onCancel restless))
  | fset => cases congrArg State.fset (hnext h)
  | fclr => cases congrArg State.fclr (hnext h)
  | drunk => exact absurd (congrArg State.didx (hnext h)) (walkIndex_ne _ _)

/-! ### The reserved words -/

theorem opcode_cases (op : BitVec 4) :
    9 ≤ op.toNat ∨ op = 0 ∨ op = 1 ∨ op = 2 ∨ op = 3 ∨ op = 4 ∨ op = 5 ∨ op = 6 ∨ op = 7 ∨
      op = 8 := by
  revert op
  decide

theorem six_le_toNat_iff (x : BitVec 12) :
    6 ≤ x.toNat ↔ x ≠ 0 ∧ x ≠ 1 ∧ x ≠ 2 ∧ x ≠ 3 ∧ x ≠ 4 ∧ x ≠ 5 := by
  bv_omega

theorem two_le_toNat_iff (x : BitVec 12) : 2 ≤ x.toNat ↔ x ≠ 0 ∧ x ≠ 1 := by bv_omega

/-- Settles O10: a word is compared only with the rows of its opcode, and one lawful state is changed
by every command but NOP. -/
theorem reservedWordsAreExactlyTheListed : Obligations.ReservedWordsAreExactlyTheListed := by
  refine ⟨fun w => ?_, fun i => ⟨fun h => ?_, ?_⟩⟩
  · rw [decode_eq_error_iff, six_le_toNat_iff, two_le_toNat_iff]
    simp (disch := decide) only [opRows, List.forall_mem_cons, accepts_noField, accepts_oneBitField,
      accepts_twoBitField, accepts_fourBitField]
    obtain h | h | h | h | h | h | h | h | h | h := opcode_cases (w.extractLsb' 12 4)
    · have hne (k : BitVec 4) (hk : k.toNat < 9) : w.extractLsb' 12 4 ≠ k := by
        rintro rfl
        omega
      simp [-BitVec.extractLsb'_toNat, h, hne]
    all_goals simp [h]
  · exact eq_nop_of_exec_restless (h restless restless_lawful)
  · rintro rfl s -
    rfl

/-! ### What a reserved word does -/

/-- `x` is `y` with bit `j` set. -/
abbrev SetsBit {n : Nat} (j : Nat) (x y : BitVec n) : Prop :=
  ∀ k, x.getLsbD k = if k = j then true else y.getLsbD k

theorem setsBit_append_ofBool {n : Nat} (x : BitVec n) (b : Bool) :
    SetsBit 0 (x ++ BitVec.ofBool true) (x ++ BitVec.ofBool b) := by
  intro k
  rw [BitVec.getLsbD_append, BitVec.getLsbD_append]
  cases k <;> simp

theorem SetsBit.append {n m j : Nat} {x y : BitVec n} (h : SetsBit j x y) (z : BitVec m) :
    SetsBit (j + m) (x ++ z) (y ++ z) := by
  intro k
  rw [BitVec.getLsbD_append, BitVec.getLsbD_append, h]
  by_cases hk : k < m
  · have hne : k ≠ j + m := by omega
    simp [hk, hne]
  · have hiff : k - m = j ↔ k = j + m := by omega
    simp [hk, hiff]

/-- `CMD_ERR` is bit 6 of `status`, with six flags below it. -/
theorem statusOut_markReserved (s : State) : SetsBit 6 (statusOut s.markReserved) (statusOut s) :=
  ((((((setsBit_append_ofBool _ s.cmdErr).append _).append _).append _).append _).append _).append _

/-- Settles O14: the rejecting branch of the step; no port but `status` shows `CMD_ERR`. -/
theorem reservedWordSetsOnlyCommandError : Obligations.ReservedWordSetsOnlyCommandError := by
  intro s c rest r hs hd
  exact ⟨_, step_error hs hd, rfl, rfl, rfl, rfl, rfl, rfl, rfl, rfl, rfl,
    fun k _ => statusOut_markReserved (s.accept c.inp rest) k⟩

end Sys2Proof.Machine


/-! # Proofs about the Probability Source: its overrides, its bands and when it returns the candidate -/

namespace Sys2Proof.Machine

/-! ### The bits the Probability Source returns -/

theorem stochasticize_of_fset {s : State} (h : s.fset = true) (b : Bool) :
    stochasticize s b = (true, s.setFset false) := by
  simp [stochasticize, h]

theorem stochasticize_of_fclr {s : State} (hs : s.fset = false) (hc : s.fclr = true) (b : Bool) :
    stochasticize s b = (false, s.setFclr false) := by
  simp [stochasticize, hs, hc]

theorem stochasticize_of_unarmed {s : State} (hs : s.fset = false) (hc : s.fclr = false) (b : Bool) :
    stochasticize s b = (regenerate s.cfg s.inp b, s) := by
  simp [stochasticize, hs, hc]

theorem cvRuleHigh_iff {k : CvRule} : cvRuleHigh k = true ↔ k = .highOnly ∨ k = .both := by
  cases k <;> simp [cvRuleHigh]

theorem cvRuleLow_iff {k : CvRule} : cvRuleLow k = true ↔ k = .lowOnly ∨ k = .both := by
  cases k <;> simp [cvRuleLow]

section
variable {c : Params} {x : Inputs}

theorem cvInvert_eq (applies b : Bool) :
    cvInvert c x applies b = if applies = true ∧ c.cvThresh < x.cv then !b else b := by
  simp [cvInvert, cvExceeds]

theorem regenerate_of_high (h : c.pHigh < x.p) (b : Bool) :
    regenerate c x b =
      if (c.cvRule = .highOnly ∨ c.cvRule = .both) ∧ c.cvThresh < x.cv then !b else b := by
  have hband : band c x.p = .high := by simp [band, h]
  simp only [regenerate, hband, cvInvert_eq, cvRuleHigh_iff]

theorem regenerate_of_low (hhigh : x.p ≤ c.pHigh) (hlow : x.p < c.pLow) (b : Bool) :
    regenerate c x b =
      if (c.cvRule = .lowOnly ∨ c.cvRule = .both) ∧ c.cvThresh < x.cv then b else !b := by
  have hband : band c x.p = .low := by simp [band, Nat.not_lt.mpr hhigh, hlow]
  simp only [regenerate, hband, cvInvert_eq, cvRuleLow_iff, Bool.not_not]

theorem regenerate_of_middle (hlow : c.pLow ≤ x.p) (hhigh : x.p ≤ c.pHigh) (b : Bool) :
    regenerate c x b = if x.p ≤ x.r then !b else b := by
  have hband : band c x.p = .middle := by
    simp [band, Nat.not_lt.mpr hhigh, Nat.not_lt.mpr hlow]
  simp only [regenerate, hband]

end

/-- Settles O19: the two overrides in their order, then one equation per band. -/
theorem stochasticizeFollowsItsBands : Obligations.StochasticizeFollowsItsBands := by
  refine fun s b => ⟨fun hs => stochasticize_of_fset hs b,
    fun hs hc => stochasticize_of_fclr hs hc b, fun hs hc => ?_⟩
  rw [stochasticize_of_unarmed hs hc]
  exact ⟨fun h => by rw [regenerate_of_high h], fun hh hl => by rw [regenerate_of_low hh hl],
    fun hl hh => by rw [regenerate_of_middle hl hh]⟩

/-! ### When every candidate comes back unchanged -/

/-- An armed override answers one of the two candidates with its complement. -/
theorem unarmed_of_returns_every_candidate {s : State} (h : ∀ b, (stochasticize s b).1 = b) :
    s.fset = false ∧ s.fclr = false := by
  have hs : s.fset = false := by
    by_contra hs
    simpa [stochasticize_of_fset (eq_true_of_ne_false hs)] using h false
  refine ⟨hs, ?_⟩
  by_contra hc
  simpa [stochasticize_of_fclr hs (eq_true_of_ne_false hc)] using h true

section
variable {c : Params} {x : Inputs}

theorem regenerate_eq_self_iff_of_high (h : c.pHigh < x.p) (b : Bool) :
    regenerate c x b = b ↔ x.cv ≤ c.cvThresh ∨ c.cvRule = .lowOnly := by
  rw [regenerate_of_high h, ite_eq_right_iff]
  cases c.cvRule <;> simp

theorem regenerate_eq_self_iff_of_low (hhigh : x.p ≤ c.pHigh) (hlow : x.p < c.pLow) (b : Bool) :
    regenerate c x b = b ↔ c.cvThresh < x.cv ∧ c.cvRule ≠ .highOnly := by
  rw [regenerate_of_low hhigh hlow, ite_eq_left_iff]
  cases c.cvRule <;> simp

theorem regenerate_eq_self_iff_of_middle (hlow : c.pLow ≤ x.p) (hhigh : x.p ≤ c.pHigh) (b : Bool) :
    regenerate c x b = b ↔ x.r < x.p := by
  rw [regenerate_of_middle hlow hhigh, ite_eq_right_iff]
  simp

/-- R115's condition with the low band's case (log 12). The middle band has a draw that inverts. -/
theorem regenerate_eq_self_iff (hv : c.pLow ≤ c.pHigh) :
    (∀ (r : Nat) (b : Bool), regenerate c { x with r := r } b = b) ↔
      PassThrough c x ∨ (x.p < c.pLow ∧ c.cvThresh < x.cv ∧ c.cvRule ≠ .highOnly) := by
  obtain hhigh | hhigh := Nat.lt_or_ge c.pHigh x.p
  · have hlow : ¬ x.p < c.pLow := by omega
    have hdraw (r : Nat) (b : Bool) :=
      regenerate_eq_self_iff_of_high (c := c) (x := { x with r := r }) hhigh b
    simp [hdraw, hhigh, hlow]
  obtain hlow | hlow := Nat.lt_or_ge x.p c.pLow
  · have hdraw (r : Nat) (b : Bool) :=
      regenerate_eq_self_iff_of_low (c := c) (x := { x with r := r }) hhigh hlow b
    simp [hdraw, Nat.not_lt.mpr hhigh, hlow]
  · refine iff_of_false (fun h => ?_) ?_
    · have hkept := regenerate_eq_self_iff_of_middle (x := { x with r := x.p }) hlow hhigh true
      exact Nat.lt_irrefl x.p (hkept.mp (h x.p true))
    · rintro (⟨hp, -⟩ | ⟨hp, -⟩) <;> omega

end

/-- With no override armed the draw reaches only the returned bit. -/
theorem stochasticize_withInp_of_unarmed {s : State} (hs : s.fset = false) (hc : s.fclr = false)
    (x : Inputs) (b : Bool) :
    stochasticize (s.withInp x) b = (regenerate s.cfg x b, s.withInp x) :=
  stochasticize_of_unarmed (s := s.withInp x) hs hc b

/-- Settles O20: no override may be armed, and then the bands decide, whatever is drawn. -/
theorem passThroughCondition : Obligations.PassThroughCondition := by
  intro s ⟨_, _, ⟨_, hv⟩, _⟩
  rw [← regenerate_eq_self_iff hv]
  constructor
  · intro h
    obtain ⟨hs, hc⟩ := unarmed_of_returns_every_candidate
      (s := s.withInp { s.inp with r := 0 }) fun b => congrArg Prod.fst (h 0 b)
    refine ⟨hs, hc, fun r b => ?_⟩
    have hbands := stochasticize_withInp_of_unarmed hs hc { s.inp with r := r } b
    exact congrArg Prod.fst (hbands.symm.trans (h r b))
  · rintro ⟨hs, hc, h⟩ r b
    exact (stochasticize_withInp_of_unarmed hs hc { s.inp with r := r } b).trans
      (congrArg (·, _) (h r b))

/-! ### What becomes of an armed override -/

/-- Both override flags are in `t` what they are in `s`. -/
abbrev SameOverrides (s t : State) : Prop := t.fset = s.fset ∧ t.fclr = s.fclr

/-- A transport ITER that takes no pending reset uses the override that comes first
(40_probability.md R112; 41_shift_engine.md R136). -/
theorem transport_overrides {d : Dir} {s t : State} (h : transport d s = .next t) :
    t.fset = (s.rp && s.fset) ∧ t.fclr = ((s.rp || s.fset) && s.fclr) := by
  have hstep : (transportStep d s.beginTransport).fset = false ∧
      (transportStep d s.beginTransport).fclr = (s.fset && s.fclr) := by
    rw [transportStep_beginTransport]
    cases s.fset <;> simp
  obtain ⟨hr, rfl⟩ | ⟨hr, -, rfl⟩ | ⟨hr, -, -, e, -, rfl⟩ := transport_cases h
  · simp [hr]
  · simpa [hr] using hstep
  · simpa [hr] using hstep

theorem iterate_sameOverrides {d : Dir} {p : Bool} {s t : State} (h : iterate d p s = .next t)
    (hp : p = true ∨ s.rp = true) : SameOverrides s t := by
  obtain ⟨-, rfl⟩ | ⟨rfl, h⟩ := iterate_cases h
  · exact ⟨rfl, rfl⟩
  · have hr : s.rp = true := by simpa using hp
    simpa [SameOverrides, hr] using transport_overrides h

theorem resetEdge_sameOverrides (s : State) : SameOverrides s (resetEdge s) := by
  rw [resetEdge_eq]
  split <;> exact ⟨rfl, rfl⟩

theorem changeLength_sameOverrides (d : Dir) (s : State) : SameOverrides s (changeLength d s) := by
  obtain ⟨-, h⟩ | ⟨l, -, h⟩ := changeLength_cases d s
  all_goals rw [h]; exact ⟨rfl, rfl⟩

theorem savePattern_sameOverrides {b : Nat} {s t : State} (h : savePattern b s = .next t) :
    SameOverrides s t := by
  obtain ⟨-, rfl⟩ := savePattern_cases h
  exact ⟨rfl, rfl⟩

theorem transportDir_iter_eq_none {d : Dir} {p : Bool} {s : State} :
    transportDir (.iter d p) s = none ↔ p = true := by
  cases p <;> simp [transportDir]

/-- A panel rotation in Performance that runs no transport ITER steps in place. -/
theorem stepInPlace_of_transportDir_eq_none {i : Instr} {d : Dir} {s : State} (hi : Rotates i d)
    (hm : s.mode = .performance) (h : transportDir i s = none) : s.cfg.stepInPlace = true := by
  by_contra hp
  simp [transportDir_of_rotates hi hm (eq_false_of_ne_true hp)] at h

/-- FSET and FCLR apart, a command that calls no `stochasticize` keeps both flags. -/
theorem ran_sameOverrides {i : Instr} {s t : State} (h : Ran s i t)
    (hq : transportDir i s = none ∨ s.rp = true) :
    SameOverrides s t ∨ (i = .fset ∧ t = s.setFset true) ∨ (i = .fclr ∧ t = s.setFclr true) := by
  cases h with
  | fset => exact .inr (.inl ⟨rfl, rfl⟩)
  | fclr => exact .inr (.inr ⟨rfl, rfl⟩)
  | iter h => exact .inl (iterate_sameOverrides h (hq.imp_left transportDir_iter_eq_none.mp))
  | panelStep hi hm h =>
    exact .inl (iterate_sameOverrides h
      (hq.imp_left (stepInPlace_of_transportDir_eq_none hi hm)) :)
  | rste => exact .inl (resetEdge_sameOverrides s)
  | chlen d => exact .inl (changeLength_sameOverrides d s)
  | panelLength => exact .inl (changeLength_sameOverrides _ _ :)
  | save h => exact .inl (savePattern_sameOverrides h)
  | panelSave _ h => exact .inl (savePattern_sameOverrides h :)
  | nop | stage | panelLoad | drunk | panelOnly => exact .inl ⟨rfl, rfl⟩

/-- Settles O17: every other command keeps both flags until `stochasticize` is called, and the call
uses `FSET` alone. -/
theorem forceCommandsArmTheirOverride : Obligations.ForceCommandsArmTheirOverride := by
  refine ⟨fun s => ⟨rfl, rfl⟩, fun i s t h hq => ?_, fun s b hs hc => ?_⟩
  · obtain ⟨hfset, hfclr⟩ | ⟨-, rfl⟩ | ⟨-, rfl⟩ := ran_sameOverrides (ran_of_exec h) hq
    · exact ⟨hfset.trans, hfclr.trans⟩
    · exact ⟨fun _ => rfl, id⟩
    · exact ⟨id, fun _ => rfl⟩
  · rw [stochasticize_of_fset hs]
    exact ⟨rfl, rfl, hc⟩

end Sys2Proof.Machine

/-! # Proofs about the Shift Engine: ITER, the rotation to step zero, RSTE and CHLEN -/

namespace Sys2Proof.Machine

/-! ### The loop read along its direction -/

/-- The bit of the register that the bit fed back in direction `d` reaches after `m` more steps: up
from bit 0 forward, down from bit 7 backward. Read in this order both directions rotate alike. -/
def loopPos (d : Dir) (m : Nat) : Nat :=
  match d with
  | .fwd => m
  | .bwd => (23 - m) % 16

theorem loopPos_lt (d : Dir) {m : Nat} (hm : m < 16) : loopPos d m < 16 := by
  cases d <;> simp only [loopPos] <;> omega

theorem loopPos_lt_eight (d : Dir) {m : Nat} (hm : m < 8) : loopPos d m < 8 := by
  cases d <;> simp only [loopPos] <;> omega

theorem loopPos_loopPos (d : Dir) {m : Nat} (hm : m < 16) : loopPos d (loopPos d m) = m := by
  cases d <;> simp only [loopPos]
  omega

theorem loopPos_inj {d : Dir} {m n : Nat} (hm : m < 16) (hn : n < 16)
    (h : loopPos d m = loopPos d n) : m = n := by
  rw [← loopPos_loopPos d hm, h, loopPos_loopPos d hn]

/-- The reverse direction reads the same loop from the other end. -/
theorem loopPos_of_ne {d e : Dir} (hde : d ≠ e) {m : Nat} (hm : m < 16) :
    loopPos e m = loopPos d ((23 - m) % 16) := by
  cases d with
  | fwd =>
    cases e with
    | fwd => exact absurd rfl hde
    | bwd => rfl
  | bwd =>
    cases e with
    | fwd => simp only [loopPos]; omega
    | bwd => exact absurd rfl hde

theorem tapIndex_eq_loopPos (d : Dir) (l : LenIdx) :
    tapIndex d (len l) = loopPos d (len l - 1) := by
  have := len_bounds l
  cases d with
  | fwd => rfl
  | bwd => rw [tapIndex_bwd, loopPos]; omega

/-- The window of a backward offset runs against the loop (41_shift_engine.md R137). -/
theorem windowPos_eq_loopPos_bwd (l : LenIdx) {m : Nat} (hm : m < len l) :
    windowPos true (len l) (len l - 1 - m) = loopPos .bwd m := by
  have := len_bounds l
  simp only [windowPos, floorMod, loopPos, if_true]
  omega

/-- Every bit of the loop window is a loop position below `L` (41_shift_engine.md R137). -/
theorem exists_loopPos_eq_windowPos (d : Dir) (l : LenIdx) {j : Nat} (hj : j < len l) :
    ∃ m < len l, windowPos (decide (d = .bwd)) (len l) j = loopPos d m := by
  have := len_bounds l
  cases d with
  | fwd => exact ⟨j, hj, rfl⟩
  | bwd =>
    refine ⟨len l - 1 - j, by omega, ?_⟩
    rw [← windowPos_eq_loopPos_bwd l (by omega), Nat.sub_sub_self (by omega)]
    rfl

/-- Two registers agree on the loop bits when they agree along the loop. -/
theorem window_eq_of_loop_eq {d : Dir} {l : LenIdx} {v w : Word}
    (h : ∀ m < len l, v.getLsbD (loopPos d m) = w.getLsbD (loopPos d m)) {j : Nat}
    (hj : j < len l) :
    v.getLsbD (windowPos (decide (d = .bwd)) (len l) j) =
      w.getLsbD (windowPos (decide (d = .bwd)) (len l) j) := by
  obtain ⟨m, hm, hpos⟩ := exists_loopPos_eq_windowPos d l hj
  rw [hpos, h m hm]

theorem eq_of_loop_eq (d : Dir) {v w : Word}
    (h : ∀ n < 16, v.getLsbD (loopPos d n) = w.getLsbD (loopPos d n)) : v = w := by
  refine BitVec.eq_of_getLsbD_eq fun i hi => ?_
  rw [← loopPos_loopPos d hi, h _ (loopPos_lt d hi)]

/-- The visible byte is the first eight positions of either direction's loop. -/
theorem visOut_eq_iff_loop_eq (d : Dir) {s t : State} :
    visOut t = visOut s ↔ ∀ n < 8, t.reg.getLsbD (loopPos d n) = s.reg.getLsbD (loopPos d n) := by
  constructor
  · intro h n hn
    have hpos := loopPos_lt_eight d hn
    rw [← visOut_getLsbD t hpos, h, visOut_getLsbD s hpos]
  · intro h
    refine BitVec.eq_of_getLsbD_eq fun i hi => ?_
    have hbit := h _ (loopPos_lt_eight d hi)
    rw [loopPos_loopPos d (by omega)] at hbit
    rw [visOut_getLsbD t hi, visOut_getLsbD s hi, hbit]

/-! ### One rotation step -/

theorem rotateStep_fwd_getLsbD (v : Word) (fb : Bool) {j : Nat} (hj : j < 16) :
    (rotateStep .fwd v fb).getLsbD j = if j = 0 then fb else v.getLsbD (j - 1) :=
  rotateForward_getLsbD v fb hj

theorem rotateStep_bwd_getLsbD (v : Word) (fb : Bool) {j : Nat} (hj : j < 16) :
    (rotateStep .bwd v fb).getLsbD j = if j = 7 then fb else v.getLsbD ((j + 1) % 16) :=
  rotateBackward_getLsbD v fb hj

/-- R131 and R132 in one: the fed-back bit enters the loop and every other bit moves up by one. -/
theorem rotateStep_loopPos (d : Dir) (v : Word) (fb : Bool) {m : Nat} (hm : m < 16) :
    (rotateStep d v fb).getLsbD (loopPos d m) =
      if m = 0 then fb else v.getLsbD (loopPos d (m - 1)) := by
  cases d with
  | fwd => exact rotateStep_fwd_getLsbD v fb hm
  | bwd =>
    rw [rotateStep_bwd_getLsbD v fb (loopPos_lt .bwd hm)]
    have hfirst : loopPos .bwd m = 7 ↔ m = 0 := by simp only [loopPos]; omega
    by_cases h0 : m = 0
    · rw [if_pos h0, if_pos (hfirst.mpr h0)]
    · have hpos : (loopPos .bwd m + 1) % 16 = loopPos .bwd (m - 1) := by simp only [loopPos]; omega
      rw [if_neg h0, if_neg (mt hfirst.mp h0), hpos]

/-- The rotation with the unmodified tap bit (41_shift_engine.md R134). -/
def loopStep (d : Dir) (L : Nat) (v : Word) : Word := rotateStep d v (tapBit d L v)

theorem iterateInPlace_eq (d : Dir) (s : State) :
    iterateInPlace d s = { s with reg := loopStep d (len s.lidx) s.reg } := rfl

theorem loopStep_loopPos (d : Dir) (l : LenIdx) (v : Word) {m : Nat} (hm : m < 16) :
    (loopStep d (len l) v).getLsbD (loopPos d m) =
      v.getLsbD (loopPos d (if m = 0 then len l - 1 else m - 1)) := by
  rw [loopStep, rotateStep_loopPos d v _ hm, tapBit, tapIndex_eq_loopPos]
  split <;> rfl

/-- Settles O22: the equations of the two rotations, with the tap bit fed back. -/
theorem inPlaceIterOnlyRotates : Obligations.InPlaceIterOnlyRotates := by
  refine fun d s => ⟨iterateInPlace d s, rfl, rfl, fun j hj => ?_⟩
  rw [iterateInPlace_eq]
  cases d with
  | fwd => exact rotateStep_fwd_getLsbD s.reg _ hj
  | bwd =>
    rw [← tapIndex_bwd]
    exact rotateStep_bwd_getLsbD s.reg _ hj

/-! ### The transport ITER -/

/-- Settles O23: the transport ITER's first case. -/
theorem transportIterTakesThePendingReset : Obligations.TransportIterTakesThePendingReset :=
  fun d _ h => transport_of_rp d h

/-- Where no staged load meets the downbeat, a transport ITER is its transport step. -/
theorem transport_of_no_load {d : Dir} {s : State} (hrp : s.rp = false)
    (hload : s.nlp = true → adv s.ofs (len s.lidx) d ≠ 0) :
    transport d s = .next (transportStep d s.beginTransport) := by
  rw [transport_of_not_rp d hrp, if_neg fun h => hload h.1 h.2]

/-- Settles O24: without a load only the transport step runs. -/
theorem transportIterRotatesAndAdvances : Obligations.TransportIterRotatesAndAdvances := by
  intro d s ⟨_, hofs, _⟩ hrp hstaged
  have hload : s.nlp = true → adv s.ofs (len s.lidx) d ≠ 0 := fun hn =>
    mt (adv_eq_zero_iff d hofs).mp (not_or.mpr (hstaged hn))
  refine ⟨_, transport_of_no_load hrp hload, ?_⟩
  rw [transportStep_beginTransport]
  refine ⟨rfl, adv_spec d hofs, fun j hj => ?_⟩
  cases d with
  | fwd => exact rotateStep_fwd_getLsbD s.reg _ hj
  | bwd =>
    rw [← tapIndex_bwd]
    exact rotateStep_bwd_getLsbD s.reg _ hj

/-- Settles O27: the advance and its bound, the step of each direction written out. -/
theorem offsetAdvanceWrapsAtTheLength : Obligations.OffsetAdvanceWrapsAtTheLength := by
  intro o l d ho
  refine ⟨?_, adv_bound d ho⟩
  cases d with
  | fwd => exact adv_spec .fwd ho
  | bwd => exact adv_spec .bwd ho

/-! ### Rotation to step zero -/

theorem windowPos_lt (back : Bool) (l : LenIdx) {j : Nat} (hj : j < len l) :
    windowPos back (len l) j < 16 := by
  have := len_bounds l
  cases back <;> simp only [windowPos, floorMod, Bool.false_eq_true, if_true, if_false] <;> omega

theorem windowIndex_windowPos (back : Bool) (l : LenIdx) {j : Nat} (hj : j < len l) :
    windowIndex back (len l) (windowPos back (len l) j) = j := by
  have := len_bounds l
  cases back <;>
    simp only [windowIndex, windowPos, floorMod, Bool.false_eq_true, if_true, if_false]
  omega

theorem windowPos_windowIndex (back : Bool) (l : LenIdx) {i : Nat} (hi : i < 16) :
    windowPos back (len l) (windowIndex back (len l) i) = i := by
  have := len_bounds l
  cases back <;>
    simp only [windowIndex, windowPos, floorMod, Bool.false_eq_true, if_true, if_false]
  omega

theorem rotateWindow_windowPos (back : Bool) (l : LenIdx) (v : Word) (k : Int) {j : Nat}
    (hj : j < len l) :
    (rotateWindow back (len l) v k).getLsbD (windowPos back (len l) j) =
      v.getLsbD (windowPos back (len l) (floorMod (j + k) (len l))) := by
  rw [rotateWindow_getLsbD back (len l) v k (windowPos_lt back l hj),
    windowIndex_windowPos back l hj, if_pos hj]

theorem rotateWindow_outside (back : Bool) (L : Nat) (v : Word) (k : Int) {i : Nat} (hi : i < 16)
    (hout : ¬ windowIndex back L i < L) : (rotateWindow back L v k).getLsbD i = v.getLsbD i := by
  rw [rotateWindow_getLsbD back L v k hi, if_neg hout]

theorem floorMod_neg_cancel (k : Int) {j L : Nat} (hj : j < L) :
    floorMod (floorMod (j + -k) L + k) L = j := by
  have hpos := Int.emod_nonneg ((j : Int) + -k) (b := L) (by omega)
  unfold floorMod
  rw [Int.toNat_of_nonneg hpos, Int.emod_add_emod, neg_add_cancel_right,
    Int.emod_eq_of_lt (by omega) (by omega), Int.toNat_natCast]

/-- Rotating a window by `k` and then by `-k` gives the word back. -/
theorem rotateWindow_neg_cancel (back : Bool) (l : LenIdx) (v : Word) (k : Int) :
    rotateWindow back (len l) (rotateWindow back (len l) v k) (-k) = v := by
  have hl := len_bounds l
  refine BitVec.eq_of_getLsbD_eq fun i hi => ?_
  by_cases hin : windowIndex back (len l) i < len l
  · have hlt := floorMod_lt (windowIndex back (len l) i + -k) (m := len l) (by omega)
    conv_lhs => rw [← windowPos_windowIndex back l hi]
    rw [rotateWindow_windowPos back l _ _ hin, rotateWindow_windowPos back l _ _ hlt,
      floorMod_neg_cancel k hin, windowPos_windowIndex back l hi]
  · rw [rotateWindow_outside back _ _ _ hi hin, rotateWindow_outside back _ _ _ hi hin]

/-- Rotating the word by `k` and then by `-k` gives the word back. -/
theorem rotateWord_neg_cancel (v : Word) {k : Int} (hk : k.natAbs < 16) :
    rotateWord (rotateWord v k) (-k) = v := by
  refine BitVec.eq_of_getLsbD_eq fun i hi => ?_
  rw [rotateWord_getLsbD _ (by omega) hi,
    rotateWord_getLsbD v hk (floorMod_lt ((i : Int) + -k) (by omega))]
  congr 1
  unfold floorMod
  omega

theorem rotateToZero_loopWindow {o : Int} (ho : o ≠ 0) (L : Nat) (v : Word) :
    rotateToZero .loopWindow L v o = rotateWindow (decide (o < 0)) L v o := if_neg ho

theorem rotateToCurrentStep_loopWindow {o : Int} (ho : o ≠ 0) (L : Nat) (v : Word) :
    rotateToCurrentStep .loopWindow L v o = rotateWindow (decide (o < 0)) L v (-o) := if_neg ho

/-- Settles O28: the bits of the rotated word, and of the rotated window, inside and outside it. -/
theorem rotateToZeroMovesEveryBit : Obligations.RotateToZeroMovesEveryBit := by
  refine ⟨fun L v o ho i hi => rotateWord_getLsbD v ho hi, fun l v o ho _ => ?_⟩
  rw [rotateToZero_loopWindow ho]
  refine ⟨fun j hj => rotateWindow_windowPos _ l v o hj, fun i hi hout => ?_⟩
  exact rotateWindow_outside _ (len l) v o hi fun hin =>
    hout _ hin (windowPos_windowIndex _ l hi)

/-- Settles O29: in each kind the two rotations are by opposite amounts. -/
theorem rotateToCurrentStepInvertsRotateToZero :
    Obligations.RotateToCurrentStepInvertsRotateToZero := by
  intro z l v o ho
  have hl := len_bounds l
  cases z with
  | word16 =>
    have hback := rotateWord_neg_cancel v (k := -o) (by omega)
    rw [neg_neg] at hback
    exact ⟨rotateWord_neg_cancel v (by omega), hback⟩
  | loopWindow =>
    by_cases h0 : o = 0
    · subst h0
      exact ⟨rfl, rfl⟩
    · have hback := rotateWindow_neg_cancel (decide (o < 0)) l v (-o)
      rw [neg_neg] at hback
      simp only [rotateToZero_loopWindow h0, rotateToCurrentStep_loopWindow h0]
      exact ⟨rotateWindow_neg_cancel _ l v o, hback⟩

/-- Under WORD16 a position takes the bit `k` further on, round the whole register. -/
theorem rotateToZero_word16_loopPos (d : Dir) (L : Nat) (v : Word) {k m : Nat} (hk : k < 16)
    (hm : m < 16) :
    (rotateToZero .word16 L v (k * dirStep d)).getLsbD (loopPos d m) =
      v.getLsbD (loopPos d ((m + k) % 16)) := by
  have hamount : (k * dirStep d).natAbs < 16 := by
    cases d <;> simp only [dirStep] <;> omega
  rw [rotateToZero, rotateWord_getLsbD v hamount (loopPos_lt d hm)]
  congr 1
  cases d <;> simp only [floorMod, dirStep, loopPos] <;> omega

/-- Counting down from the end of a loop of length `L` is counting up, read from the end. -/
theorem floorMod_reflect {L : Nat} (hL : 0 < L) (n : Nat) :
    floorMod ((L : Int) - 1 - n) L = L - 1 - n % L := by
  have hlt := Nat.mod_lt n hL
  have hsplit : (L : Int) - 1 - n = ((L - 1 - n % L : Nat) : Int) + L * -((n / L : Nat) : Int) := by
    have := Nat.div_add_mod n L
    rw [mul_neg, ← Nat.cast_mul]
    omega
  rw [floorMod, hsplit, Int.add_mul_emod_self_left, Int.emod_eq_of_lt (by omega) (by omega),
    Int.toNat_natCast]

/-- Under LOOP_WINDOW a position takes the bit `k` further on, round the loop. -/
theorem rotateToZero_loopWindow_loopPos (d : Dir) (l : LenIdx) (v : Word) {k m : Nat} (hk : 1 ≤ k)
    (hm : m < len l) :
    (rotateToZero .loopWindow (len l) v (k * dirStep d)).getLsbD (loopPos d m) =
      v.getLsbD (loopPos d ((m + k) % len l)) := by
  have hl := len_bounds l
  cases d with
  | fwd =>
    rw [dirStep, mul_one, rotateToZero_loopWindow (by omega), decide_eq_false (by omega)]
    exact rotateWindow_windowPos false l v k hm
  | bwd =>
    have hsource : ((len l - 1 - m : Nat) : Int) + -(k : Int) = len l - 1 - (m + k : Nat) := by
      omega
    rw [dirStep, mul_neg_one, rotateToZero_loopWindow (by omega), decide_eq_true (by omega),
      ← windowPos_eq_loopPos_bwd l hm, rotateWindow_windowPos true l v _ (by omega), hsource,
      floorMod_reflect (by omega), windowPos_eq_loopPos_bwd l (Nat.mod_lt _ (by omega))]

/-! ### RSTE -/

theorem exec_rste (s : State) : exec .rste s = .next (resetEdge s) := rfl

theorem resetEdge_of_deferred {s : State} (h : s.cfg.resetPolicy = .deferred) :
    resetEdge s = { s with
      reg := rotateToZero s.cfg.zeroRotation (len s.lidx) s.reg (effOffset s), rp := true } := by
  rw [resetEdge_eq, h]

theorem resetEdge_of_immediate {s : State} (h : s.cfg.resetPolicy = .immediate) :
    resetEdge s = { s with
      reg := rotateToZero s.cfg.zeroRotation (len s.lidx) s.reg (offsetOf s.ofs)
      ofs := 0, wr := true } := by
  rw [resetEdge_eq, h]

/-- A second reset edge finds offset 0 (41_shift_engine.md R140) and its flag already set. -/
theorem resetEdge_resetEdge (s : State) : resetEdge (resetEdge s) = resetEdge s := by
  have hcfg := (resetEdge_frame s).cfg
  cases h : s.cfg.resetPolicy with
  | deferred =>
    rw [resetEdge_of_deferred (s := resetEdge s) (by rw [hcfg, h]), resetEdge_of_deferred h]
    simp only [effOffset, if_true, rotateToZero_zero]
  | immediate =>
    rw [resetEdge_of_immediate (s := resetEdge s) (by rw [hcfg, h]), resetEdge_of_immediate h]
    simp only [offsetOf_zero, rotateToZero_zero]

/-- Settles O30: the reset edge under each policy, and that it is idempotent. -/
theorem resetEdgeRotatesToStepZero : Obligations.ResetEdgeRotatesToStepZero := by
  refine ⟨fun s h => ?_, fun s h => ?_, fun s t h => ?_⟩
  · rw [exec_rste, resetEdge_of_deferred h]
    rfl
  · rw [exec_rste, resetEdge_of_immediate h]
  · cases h
    rw [exec_rste, resetEdge_resetEdge]

/-- With no reset pending RSTE rotates by the offset, whatever the policy. -/
theorem resetEdge_reg_of_not_rp {s : State} (h : s.rp = false) :
    (resetEdge s).reg =
      rotateToZero s.cfg.zeroRotation (len s.lidx) s.reg (offsetOf s.ofs) := by
  cases hp : s.cfg.resetPolicy with
  | deferred => simp [resetEdge_of_deferred hp, effOffset, h]
  | immediate => simp [resetEdge_of_immediate hp]

/-! ### CHLEN -/

theorem exec_chlen (d : Dir) (s : State) : exec (.chlen d) s = .next (changeLength d s) := rfl

theorem len_mono {l m : LenIdx} (h : l.val ≤ m.val) : len l ≤ len m := by
  revert l m
  decide

/-- The truncated remainder has the sign of its operand (00_scope.md R10). -/
theorem trem_eq_sign_mul (a : Int) (m : Nat) :
    trem a m = a.sign * ((a.natAbs % m : Nat) : Int) := by
  unfold trem
  obtain ⟨n, rfl | rfl⟩ := Int.eq_nat_or_neg a
  all_goals obtain rfl | hn := Nat.eq_zero_or_pos n
  · simp
  · rw [Int.sign_eq_one_of_pos (by omega), Int.natAbs_natCast, one_mul, Int.ofNat_tmod]
  · simp
  · rw [Int.sign_eq_neg_one_of_neg (by omega), Int.natAbs_neg, Int.natAbs_natCast, neg_one_mul,
      Int.neg_tmod, Int.ofNat_tmod]

/-- Settles O35: the index moves by the direction's step, and the offset is re-normalised by the new
length, which leaves it alone where that length is not shorter. -/
theorem changeLengthMovesOneTableEntry : Obligations.ChangeLengthMovesOneTableEntry := by
  refine ⟨rfl, rfl, fun d s ⟨_, hofs, _⟩ => ?_⟩
  rw [← nextLength_eq_none, exec_chlen]
  obtain ⟨hnone, heq⟩ | ⟨l, hsome, heq⟩ := changeLength_cases d s
  · exact ⟨fun _ => by rw [heq], fun h => absurd hnone h⟩
  have hval := nextLength_eq_some hsome
  refine ⟨fun h => by simp [h] at hsome, fun _ => ⟨_, congrArg _ heq, rfl, ?_,
    (renormOffset_spec s.ofs l).trans (trem_eq_sign_mul _ _), renormOffset_bound s.ofs l, ?_⟩⟩
  · cases d <;> exact hval
  · rintro rfl
    have hlonger : len s.lidx ≤ len l := len_mono (by simp only [dirStep] at hval; omega)
    exact offsetOf_inj ((renormOffset_spec s.ofs l).trans (trem_of_lt (by omega)))

/-! ### Loops of pure steps -/

/-- A bit of the loop goes round it (41_shift_engine.md R133). -/
theorem loopStep_iterate_mod (d : Dir) (l : LenIdx) (v : Word) (k : Nat) {m : Nat}
    (hm : m < len l) :
    ((loopStep d (len l))^[k] v).getLsbD (loopPos d ((m + k) % len l)) =
      v.getLsbD (loopPos d m) := by
  have hl := len_bounds l
  induction k with
  | zero => rw [Nat.add_zero, Nat.mod_eq_of_lt hm]; rfl
  | succ k ih =>
    have hlt := Nat.mod_lt (m + k) (y := len l) (by omega)
    have hnext : (m + (k + 1)) % len l =
        if (m + k) % len l = len l - 1 then 0 else (m + k) % len l + 1 := by
      rw [← Nat.add_assoc, ← Nat.mod_add_mod]
      split
      next h => rw [h, Nat.sub_add_cancel (by omega), Nat.mod_self]
      next h => exact Nat.mod_eq_of_lt (by omega)
    rw [Function.iterate_succ_apply', hnext]
    split
    next h => rw [loopStep_loopPos d l _ (by omega), if_pos rfl, ← h, ih]
    next => rw [loopStep_loopPos d l _ (by omega), if_neg (by omega), Nat.add_sub_cancel, ih]

/-- A bit that the register has room for moves up by one a step. -/
theorem loopStep_iterate_add (d : Dir) (l : LenIdx) (v : Word) {k m : Nat} (hm : m + k < 16) :
    ((loopStep d (len l))^[k] v).getLsbD (loopPos d (m + k)) = v.getLsbD (loopPos d m) := by
  induction k with
  | zero => rfl
  | succ k ih =>
    rw [Function.iterate_succ_apply', loopStep_loopPos d l _ hm, if_neg (by omega)]
    exact ih (by omega)

/-- `L` steps bring every bit of the loop back. -/
theorem loopStep_iterate_len (d : Dir) (l : LenIdx) (v : Word) {m : Nat} (hm : m < len l) :
    ((loopStep d (len l))^[len l] v).getLsbD (loopPos d m) = v.getLsbD (loopPos d m) := by
  have h := loopStep_iterate_mod d l v (len l) hm
  rwa [Nat.add_mod_right, Nat.mod_eq_of_lt hm] at h

/-- The step accepts a command presented by its word. -/
theorem step_encode {s : State} {i : Instr} {x : Inputs} {rest : List Presentation}
    (hi : i.WellFormed) (h : s.script = ⟨encode i, x⟩ :: rest) :
    step s = exec i (s.accept x rest) :=
  step_ok h (decodeOfEncodeIsTheCommand i hi)

theorem runFor_inPlace (d : Dir) (xs : List Inputs) {s : State}
    (h : s.script = present (xs.map fun x => (.iter d true, x))) :
    ∃ t, runFor xs.length s = .next t ∧ t.ofs = s.ofs ∧
      t.reg = (loopStep d (len s.lidx))^[xs.length] s.reg := by
  induction xs generalizing s with
  | nil => exact ⟨s, rfl, rfl, rfl⟩
  | cons x xs ih =>
    have hstep := step_encode (i := .iter d true) rfl h
    obtain ⟨t, hrun, hofs, hreg⟩ := ih (s := iterateInPlace d (s.accept x _)) rfl
    exact ⟨t, (runFor_succ hstep).trans hrun, hofs, hreg⟩

/-- Settles O33: the run is `L` loop steps. -/
theorem inPlaceLoopsCloseAfterTheLength : Obligations.InPlaceLoopsCloseAfterTheLength := by
  intro d s xs hlen hscript
  obtain ⟨t, hrun, hofs, hreg⟩ := runFor_inPlace d xs hscript
  rw [hlen] at hrun hreg
  refine ⟨t, hrun, hofs, fun j hj => window_eq_of_loop_eq (fun m hm => ?_) hj⟩
  rw [hreg, loopStep_iterate_len d s.lidx s.reg hm]

/-! ### A reset after pure steps -/

/-- Nothing is pending or armed that a transport ITER would act on. -/
structure Quiet (s : State) : Prop where
  rp : s.rp = false
  nlp : s.nlp = false
  fset : s.fset = false
  fclr : s.fclr = false

/-- A transport ITER that returns the tap bit and loads nothing: the loop step and the advance. -/
def pureStep (d : Dir) (s : State) : State :=
  { s with
    reg := loopStep d (len s.lidx) s.reg
    ofs := adv s.ofs (len s.lidx) d
    wr := false
    npl := false }

theorem quiet_accept {s : State} (hq : Quiet s) (x : Inputs) (rest : List Presentation) :
    Quiet (s.accept x rest) := ⟨hq.rp, hq.nlp, hq.fset, hq.fclr⟩

theorem quiet_pureStep {s : State} (hq : Quiet s) (d : Dir) : Quiet (pureStep d s) :=
  ⟨hq.rp, hq.nlp, hq.fset, hq.fclr⟩

theorem transport_of_quiet (d : Dir) {s : State} (hq : Quiet s) (hx : PassThrough s.cfg s.inp) :
    transport d s = .next (pureStep d s) := by
  obtain ⟨hrp, hnlp, hfset, hfclr⟩ := hq
  rw [transport_of_no_load hrp (by simp [hnlp]), transportStep_beginTransport,
    stochasticize_passThrough hfset hfclr hx]
  simp [pureStep, loopStep, hfset, hfclr]

/-- With pass-through inputs a presented transport ITER is a pure step of a quiet state. -/
theorem step_of_quiet {d : Dir} {s : State} {x : Inputs} {rest : List Presentation} (hq : Quiet s)
    (hx : PassThrough s.cfg x) (h : s.script = ⟨encode (.iter d false), x⟩ :: rest) :
    step s = .next (pureStep d (s.accept x rest)) :=
  (step_encode (i := .iter d false) rfl h).trans (transport_of_quiet d (quiet_accept hq x rest) hx)

/-- Short of the length the advance only counts (41_shift_engine.md R135). -/
theorem adv_of_lt {d : Dir} {o : BitVec 5} {l : LenIdx} {a : Nat} (ho : offsetOf o = a * dirStep d)
    (ha : a + 1 < len l) : offsetOf (adv o (len l) d) = (a + 1 : Nat) * dirStep d := by
  rw [adv_spec d (by cases d <;> simp only [dirStep] at ho <;> omega), ho, if_neg]
  · push_cast
    ring
  · cases d <;> simp only [dirStep] <;> omega

/-- `t` is what `k` pure steps in direction `d` leave of `s`, as far as RSTE reads it. -/
structure PureRun (d : Dir) (k : Nat) (s t : State) : Prop where
  quiet : Quiet t
  cfg : t.cfg = s.cfg
  lidx : t.lidx = s.lidx
  reg : t.reg = (loopStep d (len s.lidx))^[k] s.reg

/-- Pass-through transport ITERs that reach no downbeat: `a` steps are done, and `xs.length` more
leave the offset short of the length. -/
theorem runFor_transportsOf (d : Dir) (xs : List Inputs) {rest : List Presentation} {s : State}
    {a : Nat} (hq : Quiet s) (hofs : offsetOf s.ofs = a * dirStep d)
    (hlen : a + xs.length < len s.lidx) (hx : ∀ x ∈ xs, PassThrough s.cfg x)
    (hscript : s.script = transportsOf d xs ++ rest) :
    ∃ t, runFor xs.length s = .next t ∧ t.script = rest ∧ PureRun d xs.length s t ∧
      offsetOf t.ofs = (a + xs.length : Nat) * dirStep d := by
  induction xs generalizing s a with
  | nil => exact ⟨s, rfl, hscript, ⟨hq, rfl, rfl, rfl⟩, hofs⟩
  | cons x xs ih =>
    rw [List.length_cons] at hlen
    obtain ⟨hhead, htail⟩ := List.forall_mem_cons.mp hx
    have hadv := adv_of_lt (l := s.lidx) hofs (by omega)
    have hroom : a + 1 + xs.length < len s.lidx := by omega
    obtain ⟨t, hrun, hrest, ⟨hquiet, hcfg, hlidx, hreg⟩, hoff⟩ :=
      ih (s := pureStep d (s.accept x _)) (quiet_pureStep (quiet_accept hq x _) d) hadv hroom
        htail rfl
    have hstep := step_of_quiet hq hhead hscript
    rw [Nat.add_right_comm] at hoff
    exact ⟨t, (runFor_succ hstep).trans hrun, hrest, ⟨hquiet, hcfg, hlidx, hreg⟩, hoff⟩

/-- Settles O32: RSTE takes the bit of each loop position from where the steps have brought it. Under
WORD16 the way round the register is the loop's for L = 16, and few steps do not go round. -/
theorem resetAfterPureStepsRestoresTheLoop : Obligations.ResetAfterPureStepsRestoresTheLoop := by
  intro d s xs x hs hofs hrp hnlp hfset hfclr hx hpos hlen hkind hscript
  have hl := len_bounds s.lidx
  obtain ⟨t, hrun, hrest, ⟨hquiet, hcfg, hlidx, hreg⟩, hoff⟩ :=
    runFor_transportsOf d xs (a := 0) ⟨hrp, hnlp, hfset, hfclr⟩ (by simp [hofs, offsetOf])
      (by omega) hx hscript
  have hreset : step t = .next (resetEdge (t.accept x [])) := step_encode (i := .rste) rfl hrest
  refine ⟨resetEdge (t.accept x []), ?_, (resetEdge_writes _).1.trans hlidx, fun j hj => ?_⟩
  · rw [runFor_add 1 hrun, runFor_succ hreset]
    rfl
  refine window_eq_of_loop_eq (fun m hm => ?_) hj
  rw [resetEdge_reg_of_not_rp (s := t.accept x []) hquiet.rp]
  simp only [State.accept, hcfg, hlidx, hreg, hoff, Nat.zero_add]
  cases hz : s.cfg.zeroRotation with
  | loopWindow =>
    rw [rotateToZero_loopWindow_loopPos d s.lidx _ hpos hm, loopStep_iterate_mod d s.lidx _ _ hm]
  | word16 =>
    rw [rotateToZero_word16_loopPos d _ _ (by omega) (by omega)]
    obtain hw | hfull | hroom := hkind
    · rw [hz] at hw; cases hw
    · have := loopStep_iterate_mod d s.lidx s.reg xs.length hm
      rwa [hfull] at this ⊢
    · rw [Nat.mod_eq_of_lt (by omega), loopStep_iterate_add d s.lidx _ (by omega)]

/-! ### A step and its reverse -/

/-- The position whose bit a step and its reverse leave at position `n` of a loop of length `L`. -/
def reversalSource (L n : Nat) : Nat :=
  if n = 7 then if L = 8 then 7 else (23 - L) % 16 else if n = 15 then L - 1 else n

theorem reversal_loopPos {d e : Dir} (hde : d ≠ e) (l : LenIdx) (v : Word) {n : Nat} (hn : n < 16) :
    (loopStep e (len l) (loopStep d (len l) v)).getLsbD (loopPos d n) =
      v.getLsbD (loopPos d (reversalSource (len l) n)) := by
  have hl := len_bounds l
  rw [loopPos_of_ne hde.symm hn, loopStep_loopPos e l _ (by omega),
    loopPos_of_ne hde (by split <;> omega), loopStep_loopPos d l _ (by omega)]
  congr 2
  unfold reversalSource
  split_ifs <;> omega

theorem reversalSource_lt (l : LenIdx) {n : Nat} (hn : n < 16) : reversalSource (len l) n < 16 := by
  have := len_bounds l
  unfold reversalSource
  split_ifs <;> omega

/-- A register made by `norm` repeats after `L` (42_pattern_store.md R171). -/
theorem normPattern_getLsbD_add_len (v : Word) (L : Nat) {i : Nat} (hi : i + L < 16) :
    (normPattern v L).getLsbD (i + L) = (normPattern v L).getLsbD i := by
  have hlt : i < 16 := by omega
  rw [normPattern_getLsbD, normPattern_getLsbD, Nat.add_mod_right, decide_eq_true hi,
    decide_eq_true hlt]

theorem normPattern_loopPos (d : Dir) (l : LenIdx) (v : Word) (h7 : len l ≤ 7) :
    (normPattern v (len l)).getLsbD (loopPos d (7 - len l)) =
      (normPattern v (len l)).getLsbD (loopPos d 7) := by
  cases d with
  | fwd =>
    have h := normPattern_getLsbD_add_len v (len l) (i := 7 - len l) (by omega)
    rw [Nat.sub_add_cancel h7] at h
    exact h.symm
  | bwd =>
    have h := normPattern_getLsbD_add_len v (len l) (i := 0) (by omega)
    have hpos : loopPos .bwd (7 - len l) = 0 + len l := by simp only [loopPos]; omega
    rw [hpos, h]
    rfl

/-- The lawful state of length `l` with one bit set, that at position `n` of the loop. -/
def marked (d : Dir) (l : LenIdx) (n : Nat) : State :=
  { State.reset with reg := BitVec.twoPow 16 (loopPos d n), lidx := l }

theorem marked_lawful (d : Dir) (l : LenIdx) (n : Nat) : Lawful (marked d l n) := by
  obtain ⟨hv, -, hframe⟩ := resetIsLawful.2.1
  exact ⟨hv, offset_zero_lt_len l, hframe⟩

theorem marked_getLsbD (d : Dir) (l : LenIdx) {n m : Nat} (hn : n < 16) (hm : m < 16) :
    (marked d l n).reg.getLsbD (loopPos d m) = decide (n = m) := by
  have hpos := loopPos_lt d hn
  have hiff : loopPos d n = loopPos d m ↔ n = m := ⟨loopPos_inj hn hm, congrArg _⟩
  rw [marked, BitVec.getLsbD_twoPow, decide_eq_true hpos, Bool.true_and, decide_eq_decide, hiff]

/-- A step and its reverse bring a position back whose source shows the same bit. -/
theorem visOut_reversal {d e : Dir} (hde : d ≠ e) {s : State}
    (h : s.reg.getLsbD (loopPos d (reversalSource (len s.lidx) 7)) = s.reg.getLsbD (loopPos d 7)) :
    visOut (iterateInPlace e (iterateInPlace d s)) = visOut s := by
  refine (visOut_eq_iff_loop_eq d).mpr fun n hn => (reversal_loopPos hde _ _ (by omega)).trans ?_
  by_cases h7 : n = 7
  · rw [h7, h]
  · rw [reversalSource, if_neg h7, if_neg (by omega)]

theorem reversalSource_sixteen {n : Nat} : reversalSource 16 n = n := by
  unfold reversalSource
  split_ifs <;> omega

theorem reversal_of_len_sixteen {d e : Dir} (hde : d ≠ e) {s : State} (h : len s.lidx = 16) :
    iterateInPlace e (iterateInPlace d s) = s := by
  have hreg : loopStep e (len s.lidx) (loopStep d (len s.lidx) s.reg) = s.reg :=
    eq_of_loop_eq d fun n hn => by rw [reversal_loopPos hde _ _ hn, h, reversalSource_sixteen]
  simp only [iterateInPlace_eq, hreg]

theorem visOut_reversal_of_len_eight {d e : Dir} (hde : d ≠ e) {s : State} (h : len s.lidx = 8) :
    visOut (iterateInPlace e (iterateInPlace d s)) = visOut s :=
  visOut_reversal hde (by rw [h]; rfl)

theorem visOut_reversal_of_norm {d e : Dir} (hde : d ≠ e) {s : State} {v : Word}
    (hlen : len s.lidx ≤ 8) (hv : s.reg = normPattern v (len s.lidx)) :
    visOut (iterateInPlace e (iterateInPlace d s)) = visOut s := by
  by_cases h8 : len s.lidx = 8
  · exact visOut_reversal_of_len_eight hde h8
  · have hl := len_bounds s.lidx
    have hsource : reversalSource (len s.lidx) 7 = 7 - len s.lidx := by
      rw [reversalSource, if_pos rfl, if_neg h8]
      omega
    refine visOut_reversal hde ?_
    rw [hsource, hv, normPattern_loopPos d _ v (by omega)]

/-- A step and its reverse leave the one set bit where its own position is the source. -/
theorem reversal_marked {d e : Dir} (hde : d ≠ e) (l : LenIdx) {k n : Nat} (hk : k < 16)
    (hn : n < 16) :
    (iterateInPlace e (iterateInPlace d (marked d l k))).reg.getLsbD (loopPos d n) =
      decide (k = reversalSource (len l) n) :=
  (reversal_loopPos hde l _ hn).trans (marked_getLsbD d l hk (reversalSource_lt l hn))

/-- For a length other than 8 and 16 the bit set at position 7 is lost. -/
theorem visOut_reversal_marked_ne {d e : Dir} (hde : d ≠ e) {l : LenIdx} (h8 : len l ≠ 8)
    (h16 : len l ≠ 16) :
    visOut (iterateInPlace e (iterateInPlace d (marked d l 7))) ≠ visOut (marked d l 7) := by
  have hl := len_bounds l
  have hlost : ¬ 7 = reversalSource (len l) 7 := by
    rw [reversalSource, if_pos rfl, if_neg h8]
    omega
  intro h
  have hbit := (visOut_eq_iff_loop_eq d).mp h 7 (by omega)
  rw [reversal_marked hde l (by omega) (by omega), marked_getLsbD d l (by omega) (by omega),
    decide_eq_decide] at hbit
  exact hlost (hbit.mpr rfl)

/-- For length 8 the bit set at position 15, outside the visible byte, is lost. -/
theorem reg_reversal_marked_ne {d e : Dir} (hde : d ≠ e) {l : LenIdx} (h8 : len l = 8) :
    (iterateInPlace e (iterateInPlace d (marked d l 15))).reg ≠ (marked d l 15).reg := by
  have hlost : ¬ 15 = reversalSource (len l) 15 := by
    rw [h8]
    decide
  intro h
  have hbit := reversal_marked hde l (k := 15) (n := 15) (by omega) (by omega)
  rw [h, marked_getLsbD d l (by omega) (by omega), decide_eq_decide] at hbit
  exact hlost (hbit.mp rfl)

/-- Settles O34: of the visible byte a step and its reverse change only the bit at position 7, and of
the register only those at positions 7 and 15. -/
theorem reversalRestoresOnlyFullLoops : Obligations.ReversalRestoresOnlyFullLoops := by
  refine ⟨fun d e s t u hde ht hu => ?_, fun d e l hde => ⟨fun h8 h16 => ?_, fun h8 => ?_⟩⟩
  · cases ht
    cases hu
    exact ⟨visOut_reversal_of_len_eight hde, reversal_of_len_sixteen hde,
      fun hlen ⟨v, hv⟩ => visOut_reversal_of_norm hde hlen hv⟩
  · exact ⟨marked d l 7, _, _, marked_lawful d l 7, rfl, rfl, rfl,
      visOut_reversal_marked_ne hde h8 h16⟩
  · exact ⟨marked d l 15, _, _, marked_lawful d l 15, rfl, rfl, rfl,
      reg_reversal_marked_ne hde h8⟩

end Sys2Proof.Machine

/-! # Proofs about the pattern store: `norm`, SAVE, STAGE and the downbeat load -/

namespace Sys2Proof.Machine

/-! ### `norm` -/

theorem normPattern_getLsbD_of_lt (v : Word) (L : Nat) {j : Nat} (hj : j < 16) :
    (normPattern v L).getLsbD j = v.getLsbD (j % L) := by
  rw [normPattern_getLsbD, decide_eq_true hj, Bool.true_and]

theorem normPattern_sixteen (v : Word) : normPattern v 16 = v := by
  refine BitVec.eq_of_getLsbD_eq fun j hj => ?_
  rw [normPattern_getLsbD_of_lt v 16 hj, Nat.mod_eq_of_lt hj]

/-- Settles O36: the bits of `norm`; the examples are evaluated. -/
theorem normReplicatesTheLoop : Obligations.NormReplicatesTheLoop := by
  refine ⟨fun v l => ?_, by decide, by decide, by decide, by decide⟩
  have hl := len_bounds l
  refine ⟨fun j hj => normPattern_getLsbD_of_lt v _ hj, fun j hj => ?_, fun j hj h16 => ?_,
    fun h => by rw [h, normPattern_sixteen]⟩
  · rw [normPattern_getLsbD_of_lt v _ (by omega), Nat.mod_eq_of_lt hj]
  · have hperiod := normPattern_getLsbD_add_len v (len l) (i := j - len l) (by omega)
    rwa [Nat.sub_add_cancel hj] at hperiod

/-! ### SAVE and STAGE -/

/-- SAVE writes the store only, and there the saved entry at its reduced bank. -/
theorem exec_save_of_lawful (b : Nat) {s : State} (h : Lawful s) :
    ∃ m, exec (.save b) s = .next (s.setStore m) ∧ ∀ a, storeRead m a =
      if a = b % s.cfg.nBanks then some (savedEntry s) else storeRead s.store a := by
  obtain ⟨hlt, -⟩ := savePattern_cases (savePattern_completes b h)
  rw [reduceBank_toNat h.1] at hlt
  exact ⟨_, savePattern_completes b h, storeRead_set _ hlt⟩

theorem exec_stage (b : Nat) (s : State) : exec (.stage b) s = .next (setNextPattern b s) := rfl

/-- Settles O37: the sixteen words are written out, and the effect is `exec_save_of_lawful`. -/
theorem saveWritesOneBank : Obligations.SaveWritesOneBank := by
  refine ⟨by decide, fun b s hs => ?_⟩
  obtain ⟨m, hexec, hread⟩ := exec_save_of_lawful b hs
  exact ⟨s.setStore m, hexec, rfl, hread⟩

/-- Settles O38: STAGE overwrites `NEXT` with its reduced operand, whatever was staged. -/
theorem stageRecordsTheBank : Obligations.StageRecordsTheBank := by
  refine ⟨by decide, fun b s hs => ⟨_, exec_stage b s, rfl, reduceBank_toNat hs.1 b⟩,
    fun a b s t h => ?_⟩
  cases h
  rfl

/-! ### When the staged load is taken -/

/-- A transport ITER in direction `d` takes no reset and its new offset is 0 (42_pattern_store.md
R176). -/
abbrev ReachesDownbeat (d : Dir) (s : State) : Prop :=
  s.rp = false ∧ (offsetOf s.ofs + dirStep d = 0 ∨ (offsetOf s.ofs + dirStep d).natAbs = len s.lidx)

/-- No load happens from `s` to `t`: what is staged stays staged, and neither `BANK` nor `NPL` shows
a load. -/
abbrev KeepsLoad (s t : State) : Prop :=
  (s.nlp = true → t.nlp = true) ∧ t.bank = s.bank ∧ (s.npl = false → t.npl = false)

/-- A transport ITER with a bank staged takes the load exactly where it reaches the downbeat. -/
theorem transport_load_cases {d : Dir} {s t : State} (hofs : (offsetOf s.ofs).natAbs < len s.lidx)
    (h : transport d s = .next t) :
    (KeepsLoad s t ∧ (s.nlp = true → ¬ ReachesDownbeat d s)) ∨
      (s.nlp = true ∧ t.nlp = false ∧ ReachesDownbeat d s) := by
  have hdown := adv_eq_zero_iff d hofs
  obtain ⟨hr, rfl⟩ | ⟨-, hno, rfl⟩ | ⟨hr, hn, hadv, e, -, rfl⟩ := transport_cases h
  · exact .inl ⟨⟨id, rfl, fun _ => rfl⟩, fun _ hd => by simp [hd.1] at hr⟩
  · rw [transportStep_beginTransport]
    exact .inl ⟨⟨id, rfl, fun _ => rfl⟩, fun hn hd => hno ⟨hn, hdown.mpr hd.2⟩⟩
  · exact .inr ⟨hn, rfl, hr, hdown.mp hadv⟩

theorem changeLength_keepsLoad (d : Dir) (s : State) : KeepsLoad s (changeLength d s) := by
  obtain ⟨-, h⟩ | ⟨l, -, h⟩ := changeLength_cases d s
  all_goals rw [h]; exact ⟨id, rfl, id⟩

theorem resetEdge_keepsLoad (s : State) : KeepsLoad s (resetEdge s) := by
  rw [resetEdge_eq]
  split <;> exact ⟨id, rfl, id⟩

theorem savePattern_keepsLoad {b : Nat} {s t : State} (h : savePattern b s = .next t) :
    KeepsLoad s t := by
  obtain ⟨-, rfl⟩ := savePattern_cases h
  exact ⟨id, rfl, id⟩

theorem iterateInPlace_keepsLoad {d : Dir} {p : Bool} {s t : State} (hp : p = true)
    (h : iterate d p s = .next t) : KeepsLoad s t := by
  subst hp
  cases h
  exact ⟨id, rfl, id⟩

/-- A command that runs no transport ITER takes no staged load. -/
theorem ran_keepsLoad {i : Instr} {s t : State} (h : Ran s i t) (hd : transportDir i s = none) :
    KeepsLoad s t := by
  cases h with
  | iter h => exact iterateInPlace_keepsLoad (transportDir_iter_eq_none.mp hd) h
  | panelStep hi hm h =>
    exact (iterateInPlace_keepsLoad (stepInPlace_of_transportDir_eq_none hi hm hd) h :)
  | rste => exact resetEdge_keepsLoad s
  | chlen d => exact changeLength_keepsLoad d s
  | @panelLength _ d hi hm =>
    exact (changeLength_keepsLoad d (s.panel .changeLength s.slot (emittedCode (.length d))) :)
  | save h => exact savePattern_keepsLoad h
  | panelSave _ h => exact (savePattern_keepsLoad h :)
  | stage | panelLoad => exact ⟨fun _ => rfl, rfl, id⟩
  | nop | fset | fclr | drunk | panelOnly => exact ⟨id, rfl, id⟩

theorem transportDir_eq_some {i : Instr} {d : Dir} {s : State} (h : transportDir i s = some d) :
    i = .iter d false ∨ (Rotates i d ∧ s.mode = .performance ∧ s.cfg.stepInPlace = false) := by
  cases i with
  | iter e p => cases p <;> cases h; exact .inl rfl
  | evRotl | evRotr =>
    simp only [transportDir, Option.ite_none_right_eq_some, Option.some.injEq] at h
    obtain ⟨hperf, rfl⟩ := h
    exact .inr ⟨by simp [Rotates], hperf⟩
  | nop | rste | chlen | save | stage | evClick | evDclick | evHold | evCancel | fset | fclr
  | drunk => cases h

/-- A panel Step that is no in-place step is recorded and then runs as a transport ITER
(44_mode_controller.md R209, R220). -/
theorem exec_of_rotates {i : Instr} {d : Dir} {s : State} (hi : Rotates i d)
    (hm : s.mode = .performance) (hp : s.cfg.stepInPlace = false) :
    exec i s = transport d (s.panel .performance s.slot (emittedCode (.step d))) := by
  obtain ⟨rfl, rfl⟩ | ⟨rfl, rfl⟩ := hi
  · change runPanel (onRotateLeft s) s = _
    simp [onRotateLeft, hm, runPanel, dispatch, iterate, hp]
  · change runPanel (onRotateRight s) s = _
    simp [onRotateRight, hm, runPanel, dispatch, iterate, hp]

/-- The command runs a transport ITER that reaches the downbeat. -/
abbrev RunsToDownbeat (i : Instr) (s : State) : Prop :=
  ∃ d, transportDir i s = some d ∧ ReachesDownbeat d s

/-- Of all commands only one that runs a transport ITER to the downbeat takes a staged load. -/
theorem exec_load_cases {i : Instr} {s t : State} (hs : Lawful s) (h : exec i s = .next t) :
    (KeepsLoad s t ∧ (s.nlp = true → ¬ RunsToDownbeat i s)) ∨
      (s.nlp = true ∧ t.nlp = false ∧ RunsToDownbeat i s) := by
  obtain ⟨-, hofs, -⟩ := hs
  unfold RunsToDownbeat
  cases hd : transportDir i s with
  | none => exact .inl ⟨ran_keepsLoad (ran_of_exec h) hd, by simp⟩
  | some d =>
    simp only [Option.some.injEq, exists_eq_left']
    obtain rfl | ⟨hi, hm, hp⟩ := transportDir_eq_some hd
    · exact transport_load_cases hofs h
    · rw [exec_of_rotates hi hm hp] at h
      exact (transport_load_cases
        (s := s.panel .performance s.slot (emittedCode (.step d))) hofs h :)

/-- Settles O26: the two cases of `exec_load_cases` exclude each other. -/
theorem stagedLoadFiresOnlyAtADownbeat : Obligations.StagedLoadFiresOnlyAtADownbeat := by
  intro i s t hs h
  obtain ⟨⟨hkeep, hbank, hnpl⟩, hno⟩ | ⟨hn, ht, hyes⟩ := exec_load_cases hs h
  · refine ⟨fun hn => ⟨fun ht => ?_, fun hyes => absurd hyes (hno hn)⟩,
      fun hne => absurd hbank hne, fun h0 h1 => ?_⟩
    · simp [hkeep hn] at ht
    · simp [hnpl h0] at h1
  · exact ⟨fun _ => ⟨fun _ => hyes, fun _ => ht⟩, fun _ => ⟨hn, ht⟩, fun _ _ => ⟨hn, ht⟩⟩

/-! ### What the staged load brings in -/

/-- Settles O25: of the cases of a transport ITER only the load is left. -/
theorem transportIterLoadsAtTheDownbeat : Obligations.TransportIterLoadsAtTheDownbeat := by
  intro d s hs hrp hnlp hdown
  have ⟨_, hofs, _⟩ := hs
  have hadv := (adv_eq_zero_iff d hofs).mpr hdown
  obtain ⟨t, ht⟩ := transport_completes d hs
  obtain ⟨hr, -⟩ | ⟨-, hno, -⟩ | ⟨-, -, -, e, he, rfl⟩ := transport_cases ht
  · simp [hrp] at hr
  · exact absurd ⟨hnlp, hadv⟩ hno
  · rw [transportStep_beginTransport] at ht
    exact ⟨e, he, ht⟩

/-- Bank `k` is staged and holds the entry `e`. -/
structure Staged (k : BitVec 4) (e : Entry) (s : State) : Prop where
  nlp : s.nlp = true
  next : s.next = k
  entry : storeRead s.store k.toNat = some e

/-- Entry `e` of bank `k` has been loaded at a downbeat. -/
structure Loaded (k : BitVec 4) (e : Entry) (t : State) : Prop where
  nlp : t.nlp = false
  reg : t.reg = e.pattern
  lidx : t.lidx = e.lidx
  bank : t.bank = k
  ofs : t.ofs = 0

/-- A transport ITER leaves what is staged or loads it. -/
theorem transport_of_staged {d : Dir} {k : BitVec 4} {e : Entry} {s t : State}
    (hs : Staged k e s) (h : transport d s = .next t) : Staged k e t ∨ Loaded k e t := by
  obtain ⟨hnlp, rfl, he⟩ := hs
  obtain ⟨-, rfl⟩ | ⟨-, -, rfl⟩ | ⟨-, -, -, e', he', rfl⟩ := transport_cases h
  · exact .inl ⟨hnlp, rfl, he⟩
  · rw [transportStep_beginTransport]
    exact .inl ⟨hnlp, rfl, he⟩
  · rw [transportStep_beginTransport]
    obtain rfl : e' = e := Option.some.inj (he'.symm.trans he)
    exact .inr ⟨rfl, rfl, rfl, rfl, rfl⟩

/-- The first step of a run that completes. -/
theorem runFor_succ_cases {k : Nat} {s t : State} (h : runFor (k + 1) s = .next t) :
    ∃ u, step s = .next u ∧ runFor k u = .next t := by
  cases hs : step s with
  | next u => exact ⟨u, rfl, (runFor_succ hs).symm.trans h⟩
  | fault r => simp [runFor, hs] at h
  | refused r => simp [runFor, hs] at h

/-- Transport ITERs up to the first that takes the staged load leave the staged entry loaded. -/
theorem loaded_of_runFor_transports {k : BitVec 4} {e : Entry} (ds : List (Dir × Inputs))
    {s t : State} (hs : Staged k e s) (hscript : s.script = transports ds)
    (hrun : runFor ds.length s = .next t) (ht : t.nlp = false)
    (hfirst : ∀ j, j < ds.length → ∀ u, runFor j s = .next u → u.nlp = true) : Loaded k e t := by
  induction ds generalizing s with
  | nil =>
    cases hrun
    simp [hs.nlp] at ht
  | cons c ds ih =>
    obtain ⟨u, hstep, hrun⟩ := runFor_succ_cases hrun
    have htr : transport c.1 (s.accept c.2 (transports ds)) = .next u :=
      (step_encode (i := .iter c.1 false) rfl hscript).symm.trans hstep
    have huscript : u.script = transports ds := (transport_frame htr).script
    have hufirst : ∀ j, j < ds.length → ∀ v, runFor j u = .next v → v.nlp = true :=
      fun j hj v hv => hfirst (j + 1) (Nat.succ_lt_succ hj) v ((runFor_succ hstep).trans hv)
    have hacc : Staged k e (s.accept c.2 (transports ds)) := ⟨hs.nlp, hs.next, hs.entry⟩
    obtain hu | hu := transport_of_staged hacc htr
    · exact ih hu huscript hrun hufirst
    · cases ds with
      | nil => cases hrun; exact hu
      | cons c' ds =>
        have hun := hufirst 0 (Nat.succ_pos _) u rfl
        simp [hu.nlp] at hun

/-! ### SAVE and STAGE of one bank, in either order -/

section
variable {b : Nat} (hb : b < 16) {s : State} (hs : Lawful s) {x y : Inputs}
  {rest : List Presentation}
include hb hs

theorem staged_after_save_stage
    (hscript : s.script = present [(.save b, x), (.stage b, y)] ++ rest) :
    ∃ u, runFor 2 s = .next u ∧ u.script = rest ∧
      Staged (reduceBank s.cfg b) (savedEntry s) u := by
  obtain ⟨m, hsave, hread⟩ :=
    exec_save_of_lawful b (lawful_accept hs x (⟨encode (.stage b), y⟩ :: rest))
  have hstep := (step_encode (i := .save b) (decide_eq_true hb) hscript).trans hsave
  refine ⟨_, (runFor_succ hstep).trans
    (runFor_succ (step_encode (i := .stage b) (decide_eq_true hb) rfl)), rfl, rfl, rfl, ?_⟩
  rw [reduceBank_toNat hs.1]
  exact (hread _).trans (if_pos rfl)

theorem staged_after_stage_save
    (hscript : s.script = present [(.stage b, x), (.save b, y)] ++ rest) :
    ∃ u, runFor 2 s = .next u ∧ u.script = rest ∧
      Staged (reduceBank s.cfg b) (savedEntry s) u := by
  have hstage : step s = .next (setNextPattern b (s.accept x (⟨encode (.save b), y⟩ :: rest))) :=
    step_encode (i := .stage b) (decide_eq_true hb) hscript
  obtain ⟨m, hsave, hread⟩ := exec_save_of_lawful b
    (lawful_accept (lawful_setNextPattern (lawful_accept hs x _) b) y rest)
  have hstep := (step_encode (i := .save b) (decide_eq_true hb) rfl).trans hsave
  refine ⟨_, (runFor_succ hstage).trans (runFor_succ hstep), rfl, rfl, rfl, ?_⟩
  rw [reduceBank_toNat hs.1]
  exact (hread _).trans (if_pos rfl)

end

/-- Settles O40: after the two commands the saved entry is staged, and the run of transport ITERs
loads it. -/
theorem saveThenStageReproducesTheSavedPattern :
    Obligations.SaveThenStageReproducesTheSavedPattern := by
  intro b s x y ds t hs hscript hb hrun ht hfirst
  obtain ⟨u, hu, hrest, hstaged⟩ :=
    hscript.elim (staged_after_save_stage hb hs) (staged_after_stage_save hb hs)
  have hload := loaded_of_runFor_transports ds hstaged hrest ((runFor_add _ hu).symm.trans hrun) ht
    fun k hk v hv => hfirst k hk v ((runFor_add k hu).trans hv)
  exact ⟨hload.reg, hload.lidx, by rw [hload.bank, reduceBank_toNat hs.1], hload.ofs⟩

end Sys2Proof.Machine

/-! # Proofs about the auxiliary commands and the trigger byte: NOP, DRUNK, `pulseIt` -/

namespace Sys2Proof.Machine

/-! ### The drunken-walk index -/

/-- `DIDX` after a DRUNK as a number (43_outputs_aux.md R198). -/
theorem walkIndex_toNat (i : BitVec 3) (x : Inputs) :
    ((walkIndex i x).toNat : Int) = ((i.toNat : Int) + signValue x.s * magnitudeValue x.m) % 8 := by
  have hlt : floorMod ((i.toNat : Int) + signValue x.s * magnitudeValue x.m) 8 < 8 :=
    floorMod_lt _ (by decide)
  rw [walkIndex, BitVec.toNat_ofNat, Nat.mod_eq_of_lt hlt, floorMod]
  exact Int.toNat_of_nonneg (Int.emod_nonneg _ (by decide))

theorem transport_didx {d : Dir} {s t : State} (h : transport d s = .next t) : t.didx = s.didx := by
  have hstep : (transportStep d s.beginTransport).didx = s.didx := by
    rw [transportStep_beginTransport]
  obtain ⟨-, rfl⟩ | ⟨-, -, rfl⟩ | ⟨-, -, -, e, -, rfl⟩ := transport_cases h
  · rfl
  · exact hstep
  · exact hstep

theorem iterate_didx {d : Dir} {p : Bool} {s t : State} (h : iterate d p s = .next t) :
    t.didx = s.didx := by
  obtain ⟨-, rfl⟩ | ⟨-, h⟩ := iterate_cases h
  · rfl
  · exact transport_didx h

@[simp] theorem resetEdge_didx (s : State) : (resetEdge s).didx = s.didx := by
  rw [resetEdge_eq]
  split <;> rfl

@[simp] theorem changeLength_didx (d : Dir) (s : State) : (changeLength d s).didx = s.didx := by
  obtain ⟨-, h⟩ | ⟨l, -, h⟩ := changeLength_cases d s
  all_goals rw [h]

theorem savePattern_didx {b : Nat} {s t : State} (h : savePattern b s = .next t) :
    t.didx = s.didx := by
  obtain ⟨-, rfl⟩ := savePattern_cases h
  rfl

/-- No engine operation and no panel event writes `DIDX` (43_outputs_aux.md R198). -/
theorem ran_didx {i : Instr} {s t : State} (hi : i ≠ .drunk) (h : Ran s i t) : t.didx = s.didx := by
  cases h with
  | drunk => exact absurd rfl hi
  | iter h => exact iterate_didx h
  | panelStep _ _ h => exact (iterate_didx h :)
  | rste => exact resetEdge_didx s
  | chlen d => exact changeLength_didx d s
  | panelLength => exact changeLength_didx _ _
  | save h => exact savePattern_didx h
  | panelSave _ h => exact (savePattern_didx h :)
  | nop | stage | panelLoad | fset | fclr | panelOnly => rfl

/-- Settles O18: DRUNK writes `walkIndex` to `DIDX`, and by the cases of `Ran` nothing else writes
it. -/
theorem drunkWalksModuloEight : Obligations.DrunkWalksModuloEight :=
  ⟨rfl, fun s => ⟨s.setDidx (walkIndex s.didx s.inp), rfl, rfl, walkIndex_toNat s.didx s.inp⟩,
    fun _ _ _ hi h => ran_didx hi (ran_of_exec h)⟩

/-! ### The trigger byte -/

/-- A bit of the trigger byte is the trigger function of its number (43_outputs_aux.md R190). -/
theorem pulseIt_getLsbD_of_lt (c : Params) (x : Byte) {k : Nat} (hk : k < 8) :
    (pulseIt c x).getLsbD k = pulseBit c x k := by
  rw [pulseIt_getLsbD, decide_eq_true hk, Bool.true_and]

/-- The trigger byte is read from the visible byte and the wiring alone, and no command rewires the
block (43_outputs_aux.md R191). -/
theorem trigOut_eq_of_visOut_eq {i : Instr} {s t : State} (h : exec i s = .next t)
    (hvis : visOut t = visOut s) : trigOut t = trigOut s := by
  obtain ⟨-, hcfg, -, -⟩ := exec_frame h
  rw [trigOut, trigOut, hcfg, hvis]

/-- Settles O51: each bit is one case of `pulseBit`; the byte depends on the visible byte and the
parameters, which no command writes. -/
theorem triggerByteIsAFunctionOfTheVisibleByte :
    Obligations.TriggerByteIsAFunctionOfTheVisibleByte := by
  refine ⟨fun c x => ?_, fun i s t h hvis => trigOut_eq_of_visOut_eq h hvis⟩
  have hbit {k : Nat} (hk : k < 8) := pulseIt_getLsbD_of_lt c x hk
  refine ⟨hbit (by decide), hbit (by decide), hbit (by decide), hbit (by decide), fun q hq => ?_⟩
  have hwired : q.1 < 8 ∧ pulseBit c x q.1 = pulseFn q.2 x := by
    simp only [List.mem_cons, List.not_mem_nil, or_false] at hq
    obtain rfl | rfl | rfl | rfl := hq
    all_goals exact ⟨by simp, rfl⟩
  obtain ⟨hk, hfn⟩ := hwired
  exact (hbit hk).trans hfn

/-! ### NOP -/

/-- Settles O16: NOP's word has neither an opcode bit nor an operand, and `execNop` answers its
state. -/
theorem nopLeavesTheStateUnchanged : Obligations.NopLeavesTheStateUnchanged :=
  ⟨rfl, fun _ => rfl⟩

end Sys2Proof.Machine

/-! # Proofs about the Mode Controller: the panel events in each mode -/

namespace Sys2Proof.Machine

/-! ### The common part of every EV command -/

/-- A transition that keeps mode and slot only records the emitted command. -/
theorem panel_same {s : State} {md : Mode} (hm : s.mode = md) (code : Byte) :
    s.panel md s.slot code = { s with mcCmd := code } := by
  subst hm
  rfl

/-- ChangeMode dispatches nothing: the new mode and its code are the whole effect
(44_mode_controller.md R220). -/
theorem runPanel_changeMode (md : Mode) (s : State) :
    runPanel ⟨md, s.slot, .changeMode⟩ s = .next { s with mode := md, mcCmd := 0x10 } := by
  have hcode : emittedCode .changeMode = 0x10 := by decide
  rw [← hcode]
  rfl

/-- An unlisted pair leaves the state unchanged but for the record of NoCmd. -/
theorem runPanel_noCmd {s : State} {md : Mode} (hm : s.mode = md) :
    runPanel ⟨md, s.slot, .noCmd⟩ s = .next { s with mcCmd := 0x00 } := by
  have hcode : emittedCode .noCmd = 0x00 := by decide
  rw [← hcode, ← panel_same hm]
  rfl

/-- Leds only repaints: the slot moves and the code is recorded. -/
theorem runPanel_leds {s : State} {md : Mode} (hm : s.mode = md) (sl : BitVec 4) :
    runPanel ⟨md, sl, .leds⟩ s = .next { s with slot := sl, mcCmd := 0x60 } := by
  have hcode : emittedCode .leds = 0x60 := by decide
  subst hm
  rw [← hcode]
  rfl

/-- Step runs the ITER of `STEP_IN_PLACE` on the state with its code recorded. -/
theorem runPanel_step {s : State} {md : Mode} (hm : s.mode = md) (d : Dir) :
    runPanel ⟨md, s.slot, .step d⟩ s =
      exec (.iter d s.cfg.stepInPlace) { s with mcCmd := emittedCode (.step d) } := by
  rw [← panel_same hm]
  rfl

/-- Length runs CHLEN on the state with its code recorded. -/
theorem runPanel_length {s : State} {md : Mode} (hm : s.mode = md) (d : Dir) :
    runPanel ⟨md, s.slot, .length d⟩ s =
      exec (.chlen d) { s with mcCmd := emittedCode (.length d) } := by
  rw [← panel_same hm]
  rfl

/-- The code of a Load is 0x40 plus the slot (10_state.md R36). -/
theorem emittedCode_load (k : BitVec 4) : emittedCode (.load k) = 0x40 + k.setWidth 8 := by
  revert k
  decide

/-- The code of a Save is 0x50 plus the slot (10_state.md R36). -/
theorem emittedCode_save (k : BitVec 4) : emittedCode (.save k) = 0x50 + k.setWidth 8 := by
  revert k
  decide

/-! ### Click and Cancel -/

theorem exec_evClick (s : State) : exec .evClick s = runPanel (onClick s) s := rfl

theorem exec_evCancel (s : State) :
    exec .evCancel s = .next { s with mode := .performance, mcCmd := 0x10 } :=
  runPanel_changeMode .performance s

/-- Settles O43: each row of Click's table is a ChangeMode or an unlisted pair. -/
theorem clickAndCancelEvents : Obligations.ClickAndCancelEvents := by
  refine ⟨rfl, rfl, fun s => ⟨?_, exec_evCancel s⟩⟩
  rw [exec_evClick]
  cases hm : s.mode with
  | performance | changeLength => simp only [onClick, hm, runPanel_changeMode]
  | patternSave | patternLoad => simp only [onClick, hm, runPanel_noCmd]

/-! ### DoubleClick -/

theorem exec_evDclick (s : State) : exec .evDclick s = runPanel (onDoubleClick s) s := rfl

/-- Load stages the slot, which in a lawful state is a bank of the store (44_mode_controller.md
R213). -/
theorem runPanel_load {s : State} (hs : Lawful s) (md : Mode) :
    runPanel ⟨md, s.slot, .load s.slot⟩ s = .next { s with
      mode := md, mcCmd := 0x40 + s.slot.setWidth 8, next := s.slot, nlp := true } := by
  change Host.Outcome.next (setNextPattern s.slot.toNat _) = _
  rw [setNextPattern_eq, emittedCode_load]
  simp only [State.panel, reduceBank_of_lt hs.1 (slot_lt_of_lawful hs)]

/-- Settles O44: the confirming row is `runPanel_load`. -/
theorem doubleClickEntersAndConfirmsALoad : Obligations.DoubleClickEntersAndConfirmsALoad := by
  refine ⟨rfl, fun s hs => ?_⟩
  rw [exec_evDclick]
  cases hm : s.mode with
  | performance => simp only [onDoubleClick, hm, runPanel_changeMode]
  | changeLength | patternSave => simp only [onDoubleClick, hm, runPanel_noCmd]
  | patternLoad => simp only [onDoubleClick, hm, runPanel_load hs]

/-! ### Hold -/

theorem exec_evHold (s : State) : exec .evHold s = runPanel (onHold s) s := rfl

/-- Hold enters PatternSave from Performance (44_mode_controller.md R214). -/
theorem exec_evHold_of_performance {s : State} (hm : s.mode = .performance) :
    exec .evHold s = .next { s with mode := .patternSave, mcCmd := 0x10 } := by
  simp only [exec_evHold, onHold, hm, runPanel_changeMode]

/-- Hold is an unlisted event of ChangeLength and PatternLoad (44_mode_controller.md R217). -/
theorem exec_evHold_of_unlisted {s : State} (hm : s.mode = .changeLength ∨ s.mode = .patternLoad) :
    exec .evHold s = .next { s with mcCmd := 0x00 } := by
  obtain hm | hm := hm
  all_goals simp only [exec_evHold, onHold, hm, runPanel_noCmd]

/-- Settles O45: the confirming Hold is a save into the slot, from a state that differs in the Mode
Controller's fields alone. -/
theorem holdEntersAndConfirmsASave : Obligations.HoldEntersAndConfirmsASave := by
  refine ⟨rfl, fun s hs => ⟨exec_evHold_of_performance, exec_evHold_of_unlisted, fun hm => ?_⟩⟩
  have hslot := slot_lt_of_lawful hs
  obtain ⟨m, hsave, hread⟩ := exec_save_of_lawful s.slot.toNat
    (lawful_panel hs .performance (emittedCode (.save s.slot)) hslot)
  have hexec := (exec_evHold_of_patternSave hm).trans hsave
  rw [emittedCode_save] at hexec
  refine ⟨_, hexec, rfl, fun a => (hread a).trans ?_⟩
  rw [State.panel, Nat.mod_eq_of_lt hslot]
  rfl

/-! ### RotateLeft and RotateRight -/

/-- The transition on a panel rotation: RotateRight steps, lengthens and moves the slot forward,
RotateLeft backward (44_mode_controller.md R210, R211). -/
def onRotate (d : Dir) (s : State) : Transition :=
  match s.mode with
  | .performance => ⟨.performance, s.slot, .step d⟩
  | .changeLength => ⟨.changeLength, s.slot, .length d⟩
  | .patternSave => ⟨.patternSave, moveSlot s.cfg s.slot (dirStep d), .leds⟩
  | .patternLoad => ⟨.patternLoad, moveSlot s.cfg s.slot (dirStep d), .leds⟩

theorem onRotateLeft_eq (s : State) : onRotateLeft s = onRotate .bwd s := by
  cases hm : s.mode <;> simp only [onRotateLeft, onRotate, hm, dirStep]

theorem onRotateRight_eq (s : State) : onRotateRight s = onRotate .fwd s := by
  cases hm : s.mode <;> simp only [onRotateRight, onRotate, hm, dirStep]

/-- Both rotation events are the one transition `onRotate`, in their own direction. -/
theorem exec_rotates {i : Instr} {d : Dir} (hi : Rotates i d) (s : State) :
    exec i s = runPanel (onRotate d s) s := by
  obtain ⟨rfl, rfl⟩ | ⟨rfl, rfl⟩ := hi
  · exact congrArg (runPanel · s) (onRotateLeft_eq s)
  · exact congrArg (runPanel · s) (onRotateRight_eq s)

theorem moveSlot_toNat_int {c : Params} (h : c.Valid) (k : BitVec 4) (n : Int) :
    ((moveSlot c k n).toNat : Int) = ((k.toNat : Int) + n) % (c.nBanks : Int) := by
  have hpos : (c.nBanks : Int) ≠ 0 := by have := h.1.1; omega
  rw [moveSlot_toNat h, floorMod]
  exact Int.toNat_of_nonneg (Int.emod_nonneg _ hpos)

section
variable {i : Instr} {d : Dir} {s : State} (hi : Rotates i d)
include hi

/-- In Performance a panel rotation completes as the ITER of `STEP_IN_PLACE`. -/
theorem rotate_steps (hs : Lawful s) (hm : s.mode = .performance) {code : Byte}
    (hcode : emittedCode (.step d) = code) :
    ∃ t, exec i s = .next t ∧
      exec (.iter d s.cfg.stepInPlace) { s with mcCmd := code } = .next t := by
  have htr : onRotate d s = ⟨.performance, s.slot, .step d⟩ := by simp only [onRotate, hm]
  have hexec : exec i s = exec (.iter d s.cfg.stepInPlace) { s with mcCmd := code } := by
    rw [exec_rotates hi, htr, runPanel_step hm, hcode]
  obtain ⟨t, ht⟩ := iterate_completes d s.cfg.stepInPlace (s := { s with mcCmd := code }) hs
  exact ⟨t, hexec.trans ht, ht⟩

/-- In ChangeLength a panel rotation completes as CHLEN. -/
theorem rotate_changesLength (hm : s.mode = .changeLength) {code : Byte}
    (hcode : emittedCode (.length d) = code) :
    ∃ t, exec i s = .next t ∧ exec (.chlen d) { s with mcCmd := code } = .next t := by
  have htr : onRotate d s = ⟨.changeLength, s.slot, .length d⟩ := by simp only [onRotate, hm]
  have hexec : exec i s = exec (.chlen d) { s with mcCmd := code } := by
    rw [exec_rotates hi, htr, runPanel_length hm, hcode]
  exact ⟨_, hexec, rfl⟩

/-- In PatternSave and PatternLoad a panel rotation moves the slot and records Leds. -/
theorem rotate_movesSlot (hs : Lawful s) (hm : s.mode = .patternSave ∨ s.mode = .patternLoad)
    {k : Int} (hk : dirStep d = k) :
    ∃ t, exec i s = .next t ∧ t = { s with slot := t.slot, mcCmd := 0x60 } ∧
      (t.slot.toNat : Int) = ((s.slot.toNat : Int) + k) % (s.cfg.nBanks : Int) := by
  have hexec : exec i s =
      .next { s with slot := moveSlot s.cfg s.slot (dirStep d), mcCmd := 0x60 } := by
    rw [exec_rotates hi]
    obtain hm | hm := hm
    all_goals simp only [onRotate, hm, runPanel_leds]
  subst hk
  exact ⟨_, hexec, rfl, moveSlot_toNat_int hs.1 s.slot (dirStep d)⟩

end

/-- Settles O42: the three lemmas on `onRotate`, for each of the two events. -/
theorem rotateEventsStepLengthenOrMoveTheSlot :
    Obligations.RotateEventsStepLengthenOrMoveTheSlot := by
  have hleft : Rotates .evRotl .bwd := .inl ⟨rfl, rfl⟩
  have hright : Rotates .evRotr .fwd := .inr ⟨rfl, rfl⟩
  refine ⟨rfl, rfl, fun s hs => ⟨fun hm => ⟨?_, ?_⟩, fun hm => ⟨?_, ?_⟩, fun hm => ⟨?_, ?_⟩⟩⟩
  · exact rotate_steps hleft hs hm (by decide)
  · exact rotate_steps hright hs hm (by decide)
  · exact rotate_changesLength hleft hm (by decide)
  · exact rotate_changesLength hright hm (by decide)
  · exact rotate_movesSlot hleft hs hm rfl
  · exact rotate_movesSlot hright hs hm rfl

/-! ### The writers of the Mode Controller -/

theorem isPanel_of_rotates {i : Instr} {d : Dir} (hi : Rotates i d) : isPanel i = true := by
  obtain ⟨rfl, -⟩ | ⟨rfl, -⟩ := hi
  all_goals rfl

/-- A command that is no panel event is an engine operation or writes one field of its own, and the
Mode Controller lies outside both (44_mode_controller.md R218). -/
theorem ran_engineFrame {i : Instr} {s t : State} (h : Ran s i t) (hi : isPanel i = false) :
    EngineFrame s t := by
  cases h with
  | iter h => exact iterate_frame h
  | rste => exact resetEdge_frame s
  | chlen d => exact changeLength_frame d s
  | save h => exact savePattern_frame h
  | stage b => exact setNextPattern_frame b s
  | nop | fset | fclr | drunk => exact ⟨rfl, rfl, rfl, rfl, rfl, rfl, rfl⟩
  | panelStep hr | panelLength hr => simp [isPanel_of_rotates hr] at hi
  | panelOnly _ hp => simp [hp] at hi
  | panelLoad | panelSave => cases hi

/-- Settles O46: the Mode Controller's three fields are of `EngineFrame`. -/
theorem onlyPanelEventsWriteTheModeController :
    Obligations.OnlyPanelEventsWriteTheModeController := by
  intro i s t h hi
  have hf := ran_engineFrame (ran_of_exec h) hi
  exact ⟨hf.mode, hf.slot, hf.mcCmd⟩

end Sys2Proof.Machine

/-! # Proofs about whole runs: no fault, no refusal, and the idle block -/

namespace Sys2Proof.Machine

/-! ### Every command completes -/

theorem onRotate_slot_lt (d : Dir) {s : State} (hs : Lawful s) :
    (onRotate d s).slot.toNat < s.cfg.nBanks := by
  unfold onRotate
  split
  case h_1 | h_2 => exact slot_lt_of_lawful hs
  case h_3 | h_4 => exact moveSlot_lt hs.1 _ _

theorem onClick_slot (s : State) : (onClick s).slot = s.slot := by
  unfold onClick
  split <;> rfl

theorem onDoubleClick_slot (s : State) : (onDoubleClick s).slot = s.slot := by
  unfold onDoubleClick
  split <;> rfl

theorem onHold_slot (s : State) : (onHold s).slot = s.slot := by
  unfold onHold
  split <;> rfl

section
variable {s : State} (hs : Lawful s)
include hs

/-- Recording a transition to a slot of the store leaves a lawful state, and there the dispatcher
completes. -/
theorem runPanel_completes {tr : Transition} (hslot : tr.slot.toNat < s.cfg.nBanks) :
    ∃ t, runPanel tr s = .next t :=
  dispatch_completes tr.cmd (lawful_panel hs tr.mode (emittedCode tr.cmd) hslot)

theorem runPanel_completes_of_slot_eq {tr : Transition} (hslot : tr.slot = s.slot) :
    ∃ t, runPanel tr s = .next t :=
  runPanel_completes hs (hslot ▸ slot_lt_of_lawful hs)

theorem rotates_completes {i : Instr} {d : Dir} (hi : Rotates i d) : ∃ t, exec i s = .next t := by
  rw [exec_rotates hi]
  exact runPanel_completes hs (onRotate_slot_lt d hs)

/-- No command faults or is refused in a lawful state (60_exceptions.md R240): the operations that
read or write a bank find it in the store, and the others have no way to fail. -/
theorem exec_completes (i : Instr) : ∃ t, exec i s = .next t := by
  cases i with
  | iter d p => exact iterate_completes d p hs
  | save b => exact ⟨_, savePattern_completes b hs⟩
  | evRotl => exact rotates_completes hs (.inl ⟨rfl, rfl⟩)
  | evRotr => exact rotates_completes hs (.inr ⟨rfl, rfl⟩)
  | evClick => exact runPanel_completes_of_slot_eq hs (onClick_slot s)
  | evDclick => exact runPanel_completes_of_slot_eq hs (onDoubleClick_slot s)
  | evHold => exact runPanel_completes_of_slot_eq hs (onHold_slot s)
  | evCancel => exact runPanel_completes_of_slot_eq hs (tr := onCancel s) rfl
  | nop | rste | chlen | stage | fset | fclr | drunk => exact ⟨_, rfl⟩

/-! ### Every step completes -/

theorem step_completes : ∃ t, step s = .next t := by
  cases hscript : s.script with
  | nil => exact ⟨s, step_nil hscript⟩
  | cons c rest =>
    cases hd : decode c.cmd with
    | error r => exact ⟨_, step_error hscript hd⟩
    | ok i =>
      rw [step_ok hscript hd]
      exact exec_completes (lawful_accept hs c.inp rest) i

end

/-- A step takes one presented command, if there is one, whatever the command does (10_state.md
R20). -/
theorem step_script {s t : State} (h : step s = .next t) : t.script = s.script.tail := by
  obtain ⟨hs, rfl⟩ | ⟨c, rest, hs, ⟨r, -, rfl⟩ | ⟨i, -, h⟩⟩ := step_cases h
  · simp [hs]
  · simp [hs]
  · obtain ⟨-, -, -, hscript⟩ := exec_frame h
    simp [hs, hscript]

/-! ### Runs -/

/-- Settles O4, by induction on the number of steps: a lawful state has a step, and the run goes on
from the lawful state it leaves. -/
theorem lawfulRunsNeverStop : Obligations.LawfulRunsNeverStop := by
  intro s k hs
  induction k generalizing s with
  | zero => exact ⟨s, rfl, hs, rfl⟩
  | succ k ih =>
    obtain ⟨u, hstep⟩ := step_completes hs
    obtain ⟨t, hrun, ht, hscript⟩ := ih u (lawful_step hs hstep)
    refine ⟨t, (runFor_succ hstep).trans hrun, ht, ?_⟩
    rw [hscript, step_script hstep, List.drop_tail]

/-- Settles O15, by induction on the number of steps: each is the idle step. -/
theorem idleBlockHoldsItsState : Obligations.IdleBlockHoldsItsState := by
  intro s k hscript
  induction k with
  | zero => rfl
  | succ k ih => exact (runFor_succ (step_nil hscript)).trans ih

end Sys2Proof.Machine

/-! # Proofs about hazards: the deferred reset, waiting overrides and a staged load's latency -/

namespace Sys2Proof.Machine

/-! ### The deferred reset -/

/-- Settles O31: under DEFERRED the reset edge sets `RP`, and a transport ITER with `RP` set only
takes the reset. -/
theorem deferredResetIsTakenByTheNextTransportStep :
    Obligations.DeferredResetIsTakenByTheNextTransportStep := by
  intro d s hdeferred
  have hreset := resetEdge_of_deferred hdeferred
  have hrp : (resetEdge s).rp = true := by rw [hreset]
  refine ⟨resetEdge s, _, exec_rste s, transport_of_rp d hrp, ?_⟩
  rw [hreset]

/-! ### Overrides wait for a transport step -/

/-- A command that runs a transport ITER, ITER itself or a panel Step, does to the overrides what
the transport ITER does. -/
theorem exec_overrides_of_transportDir {i : Instr} {d : Dir} {s t : State}
    (hd : transportDir i s = some d) (h : exec i s = .next t) :
    t.fset = (s.rp && s.fset) ∧ t.fclr = ((s.rp || s.fset) && s.fclr) := by
  obtain rfl | ⟨hi, hm, hp⟩ := transportDir_eq_some hd
  · exact transport_overrides h
  · rw [exec_of_rotates hi hm hp] at h
    exact (transport_overrides h :)

/-- Settles O21: a transport ITER that takes no reset calls `stochasticize`; every other command but
FSET and FCLR keeps both flags. -/
theorem overridesAreConsumedOnlyByTransportSteps :
    Obligations.OverridesAreConsumedOnlyByTransportSteps := by
  intro i s t h hfset hfclr
  by_cases hcalls : (transportDir i s).isSome ∧ s.rp = false
  · obtain ⟨hsome, hrp⟩ := hcalls
    obtain ⟨d, hd⟩ := Option.isSome_iff_exists.mp hsome
    obtain ⟨hset, hclr⟩ := exec_overrides_of_transportDir hd h
    cases hs : s.fset <;> simp [hset, hclr, hsome, hrp, hs]
  · have hquiet : transportDir i s = none ∨ s.rp = true := by
      simpa [imp_iff_not_or] using hcalls
    obtain ⟨hset, hclr⟩ | ⟨rfl, -⟩ | ⟨rfl, -⟩ := ran_sameOverrides (ran_of_exec h) hquiet
    · rw [if_neg hcalls, if_neg fun hc => hcalls ⟨hc.1, hc.2.1⟩]
      exact ⟨hset, hclr⟩
    · exact absurd rfl hfset
    · exact absurd rfl hfclr

/-! ### The latency of a staged load -/

/-- The count is 1 where the next step reaches the downbeat. -/
theorem stepsToDownbeat_of_downbeat {d : Dir} {L : Nat} {o : Int} (ho : o.natAbs < L)
    (h : o + dirStep d = 0 ∨ (o + dirStep d).natAbs = L) : stepsToDownbeat d L o = 1 := by
  cases d with
  | fwd =>
    simp only [stepsToDownbeat, dirStep] at h ⊢
    split_ifs <;> omega
  | bwd =>
    simp only [stepsToDownbeat, dirStep] at h ⊢
    split_ifs <;> omega

/-- A step that does not reach the downbeat takes one off the count. -/
theorem stepsToDownbeat_of_not_downbeat {d : Dir} {L : Nat} {o : Int} (ho : o.natAbs < L)
    (h : ¬ (o + dirStep d = 0 ∨ (o + dirStep d).natAbs = L)) :
    stepsToDownbeat d L o = stepsToDownbeat d L (o + dirStep d) + 1 := by
  cases d with
  | fwd =>
    simp only [dirStep] at h ⊢
    simp only [stepsToDownbeat]
    split_ifs <;> omega
  | bwd =>
    simp only [dirStep] at h ⊢
    simp only [stepsToDownbeat]
    split_ifs <;> omega

theorem stepsToDownbeat_pos (d : Dir) {L : Nat} {o : Int} (ho : o.natAbs < L) :
    0 < stepsToDownbeat d L o := by
  by_cases h : o + dirStep d = 0 ∨ (o + dirStep d).natAbs = L
  · simp [stepsToDownbeat_of_downbeat ho h]
  · simp [stepsToDownbeat_of_not_downbeat ho h]

/-- A bank is staged in the lawful state `s` and no reset is pending: the next downbeat takes the
load. -/
structure AwaitsLoad (s : State) : Prop where
  lawful : Lawful s
  rp : s.rp = false
  nlp : s.nlp = true

/-- What R267 says of a state before the downbeat: the load is staged, with the length, the bank and
the store as they were. -/
abbrev StillStaged (s u : State) : Prop :=
  u.nlp = true ∧ u.lidx = s.lidx ∧ u.bank = s.bank ∧ u.store = s.store

/-- The number of steps of R267 from a state. -/
abbrev stepsLeft (d : Dir) (s : State) : Nat := stepsToDownbeat d (len s.lidx) (offsetOf s.ofs)

section
variable {d : Dir} {s : State} (hs : AwaitsLoad s)
include hs

theorem awaitsLoad_accept (x : Inputs) (rest : List Presentation) : AwaitsLoad (s.accept x rest) :=
  ⟨lawful_accept hs.lawful x rest, hs.rp, hs.nlp⟩

/-- A transport ITER that reaches the downbeat loads the staged entry, and it was the last one
counted. -/
theorem transport_loads (hdown : ReachesDownbeat d s) :
    stepsLeft d s = 1 ∧ ∃ t e, transport d s = .next t ∧
      storeRead s.store s.next.toNat = some e ∧ Loaded s.next e t ∧ t.npl = true := by
  obtain ⟨hlawful, hrp, hnlp⟩ := hs
  have ⟨_, hofs, _⟩ := hlawful
  obtain ⟨e, he, ht⟩ := transportIterLoadsAtTheDownbeat d s hlawful hrp hnlp hdown.2
  exact ⟨stepsToDownbeat_of_downbeat hofs hdown.2, _, e, ht, he,
    ⟨rfl, rfl, rfl, rfl, rfl⟩, rfl⟩

/-- A transport ITER that does not reach the downbeat leaves the load staged, one step nearer. -/
theorem transport_awaits (hdown : ¬ ReachesDownbeat d s) :
    ∃ u, transport d s = .next u ∧ AwaitsLoad u ∧ StillStaged s u ∧ u.next = s.next ∧
      stepsLeft d s = stepsLeft d u + 1 := by
  obtain ⟨hlawful, hrp, hnlp⟩ := hs
  have ⟨_, hofs, _⟩ := hlawful
  have hno : ¬ (offsetOf s.ofs + dirStep d = 0 ∨
      (offsetOf s.ofs + dirStep d).natAbs = len s.lidx) := not_and.mp hdown hrp
  have htr := transport_of_no_load hrp fun _ => mt (adv_eq_zero_iff d hofs).mp hno
  have hu := lawful_transport hlawful htr
  have hadv := adv_spec d hofs
  rw [if_neg fun h => hno (.inr h)] at hadv
  rw [transportStep_beginTransport] at htr hu
  refine ⟨_, htr, ⟨hu, hrp, hnlp⟩, ⟨hnlp, rfl, rfl, rfl⟩, rfl, ?_⟩
  simp only [stepsLeft, hadv]
  exact stepsToDownbeat_of_not_downbeat hofs hno

end

/-- R267 by induction on the transport ITERs: each takes one off the count until the one that
reaches the downbeat, which is the last and loads. -/
theorem runFor_awaitsLoad {d : Dir} {xs : List Inputs} {rest : List Presentation} {s : State}
    (hs : AwaitsLoad s) (hlen : xs.length = stepsLeft d s)
    (hscript : s.script = transportsOf d xs ++ rest) :
    (∀ k, k < xs.length → ∃ u, runFor k s = .next u ∧ StillStaged s u) ∧
    ∃ t e, runFor xs.length s = .next t ∧ storeRead s.store s.next.toNat = some e ∧
      Loaded s.next e t ∧ t.npl = true ∧ t.script = rest := by
  induction xs generalizing s with
  | nil =>
    have ⟨_, hofs, _⟩ := hs.lawful
    exact absurd hlen (stepsToDownbeat_pos d hofs).ne
  | cons x xs ih =>
    have hstart : StillStaged s s := ⟨hs.nlp, rfl, rfl, rfl⟩
    have hacc := awaitsLoad_accept hs x (transportsOf d xs ++ rest)
    have hiter : step s = transport d (s.accept x (transportsOf d xs ++ rest)) :=
      step_encode (i := .iter d false) rfl hscript
    by_cases hdown : ReachesDownbeat d s
    · obtain ⟨hone, t, e, ht, he, hload, hnpl⟩ := transport_loads hacc hdown
      obtain rfl : xs = [] := List.length_eq_zero_iff.mp (Nat.succ.inj (hlen.trans hone))
      refine ⟨fun k hk => ?_, t, e, runFor_succ (hiter.trans ht), he, hload, hnpl,
        (transport_frame ht).script⟩
      obtain rfl := Nat.lt_one_iff.mp hk
      exact ⟨s, rfl, hstart⟩
    · obtain ⟨u, hu, hawaits, ⟨-, hlidx, hbank, hstore⟩, hnext, hcount⟩ :=
        transport_awaits hacc hdown
      have hrunu {k : Nat} : runFor (k + 1) s = runFor k u := runFor_succ (hiter.trans hu)
      obtain ⟨hbefore, t, e, hrun, he, hload⟩ := ih hawaits (Nat.succ.inj (hlen.trans hcount))
        (transport_frame hu).script
      rw [hstore, hnext] at he
      rw [hnext] at hload
      refine ⟨fun k hk => ?_, t, e, hrunu.trans hrun, he, hload⟩
      cases k with
      | zero => exact ⟨s, rfl, hstart⟩
      | succ k =>
        obtain ⟨v, hv, hvnlp, hvlidx, hvbank, hvstore⟩ := hbefore k (Nat.lt_of_succ_lt_succ hk)
        exact ⟨v, hrunu.trans hv, hvnlp, hvlidx.trans hlidx, hvbank.trans hbank,
          hvstore.trans hstore⟩

/-- Settles O39: the run of `runFor_awaitsLoad`, the loaded entry's fields written out. -/
theorem stagedLoadLatency : Obligations.StagedLoadLatency := by
  intro d s xs rest hlawful hrp hnlp hlen hscript
  obtain ⟨hbefore, t, e, hrun, he, hload, hnpl, hrest⟩ :=
    runFor_awaitsLoad ⟨hlawful, hrp, hnlp⟩ hlen hscript
  exact ⟨hbefore, t, e, hrun, he, hload.reg, hload.lidx, hload.ofs, hload.bank, hload.nlp, hnpl,
    hrest⟩

end Sys2Proof.Machine
